-- ==== Sys2Proof/Word.lean ====
section
/-! DEFINITION. The word types. R8: multi-byte values are little-endian, bit 0 the least significant. -/

namespace Sys2Proof

/-- One byte. -/
abbrev Byte := BitVec 8
/-- A 32-bit word, the unit of registers, carrel headers and descriptors. -/
abbrev Word32 := BitVec 32
/-- A 64-bit word: scalar registers, counters, AMO operands. -/
abbrev Word64 := BitVec 64

/-- A 16-bit register. -/
abbrev Word16 := BitVec 16

end Sys2Proof
end

