-- ==== Sys2Proof/Syntax.lean ====
section
/-! DEFINITION. The commands: one constructor of Instr per row of the opcode table, with the operands the row takes from
outside (the acting unit and what the environment brings). -/

namespace Sys2Proof

/-- The die kinds, in the code order of R61. -/
inductive DieKind | c | x | d
  deriving DecidableEq, Repr

/-- The two memory tiers (R29), and the clusters' local memory (R263). -/
inductive Space | near | dep | loc
  deriving DecidableEq, Repr

/-- A cluster, by logical C-die and logical number (R22). -/
structure ClusterId where
  cdie    : Nat
  cluster : Nat
  deriving DecidableEq, Repr

/-- A hardware thread (R341). -/
structure ThreadId where
  at_    : ClusterId
  thread : Nat
  deriving DecidableEq, Repr

/-- A read of host memory that fails (R83). -/
inductive HostError | ur | ca | timeout | poisoned
  deriving DecidableEq, Repr

/-- A run of host memory as the device finds it when it reads: what no segment covers fails with Unsupported Request (log 10). -/
structure HostSegment where
  base  : Nat
  bytes : List Byte
  deriving DecidableEq, Repr

/-- The host memory that one command's reads meet (log 10). -/
abbrev HostView := List HostSegment


/-- The requesters that can stop at a restart point (R370, R373). -/
inductive Requester
  | thread (t : ThreadId)
  | matrix (e : ClusterId)
  | vector (e : ClusterId)
  | conventional (cdie : Nat)
  | routing (xdie : Nat)
  | dma (xdie engine : Nat)
  | consort (xdie : Nat)
  /-- an accumulate port: controller of a C-die, or a D-die (controller 8, R370) -/
  | port (die unit : Nat)
  /-- an update unit, named by the layer it works on -/
  | update (layer : Nat)
  /-- a request from a peer over Windway, by its place in the fault hold (R475) -/
  | peer (index : Nat)
  deriving DecidableEq, Repr

/-- Where an error of the part's own SRAM is found (R545). -/
inductive SramPlace
  /-- a word of a cluster's scratchpad, folios or operand cache, by its LOCAL offset -/
  | word (e : ClusterId) (offset : Nat)
  /-- an accumulator word of the tile that the active matrix operation uses -/
  | accumulator (e : ClusterId)
  /-- a register of a thread, or the queue entry of the active operation, of a requester -/
  | entry (r : Requester)
  /-- an entry of a bank of the antilog, function or micro-program tables, read by the active operation of a requester -/
  | table (r : Requester)
  /-- a flow-table entry -/
  | flow (index : Nat)
  /-- a spill-list entry -/
  | spill (index : Nat)
  /-- an entry of a translation cache of a die -/
  | translation (kind : DieKind) (die : Nat)
  /-- a staging slot, or a burst in progress, of an accumulate port (R423) -/
  | slot (die unit group bucket burst : Nat)
  deriving DecidableEq, Repr

/-- The AER uncorrectable errors of R86, by name. -/
inductive AerError | ecrc | poisonedTlp | unsupportedRequest | completerAbort | completionTimeout | unexpectedCompletion
  deriving DecidableEq, Repr

/-- Errors of the link layer, which it mends by a replay (R86). -/
inductive LinkError | receiver | badTlp | badDllp
  deriving DecidableEq, Repr

/-- How a TLP reaches the port (R86): its first copies were lost to link errors and replayed; it fails its ECRC; it is poisoned. -/
structure Arrival where
  replayed : List LinkError
  ecrcBad  : Bool
  poisoned : Bool
  deriving DecidableEq, Repr

/-- What a TLP brings or asks for, and how it reaches the port. -/
structure Received (α : Type) where
  what    : α
  arrival : Arrival
  deriving DecidableEq, Repr

/-- A write to configuration space (R67, R68, R80, R85 to R87). -/
inductive ConfigWrite
  | busMaster (on : Bool)
  | memorySpace (on : Bool)
  | msixEnable (on : Bool)
  | functionMask (on : Bool)
  | ecrcGenerate (on : Bool)
  | ecrcCheck (on : Bool)
  | tenBitTag (on : Bool)
  | relaxedOrdering (on : Bool)
  | maxPayload (code : Nat)
  | maxReadRequest (code : Nat)
  | completionTimeout (value : Nat)
  | aspmL1 (on : Bool)
  | aerClear (e : AerError)
  | aerSeverity (e : AerError) (fatal : Bool)
  | aerCorrectedClear (e : LinkError)
  deriving DecidableEq, Repr

/-- What unmasks a pending message (R85). -/
inductive Unmask
  | vector (v : Nat)
  | function
  | enable
  deriving DecidableEq, Repr

/-- What completes a read of host memory (R83). -/
inductive HostCompletion
  | data (bytes : List Byte)
  | error (e : HostError)
  deriving DecidableEq, Repr

/-- What phases 7 and 8 of a start meet outside the logic of the part: the entropy source (R382, R323, R464), self-tests and
training (R551), the tray controller's answer (R524), and a fatal error (R544). -/
structure StartReport where
  nearKey        : BitVec 128
  depKey         : BitVec 128
  flowKey        : Word64
  startNumber    : Word32
  /-- (C-die, physical cluster) that fail their self-test -/
  failedClusters : List (Nat × Nat)
  /-- (SPINE_LINK instance, direction, lane) that fail training -/
  failedLanes    : List (Nat × Nat × Nat)
  /-- (die kind code, die, plane) crossbar planes that fail their self-test (C8 only) -/
  failedPlanes   : List (Nat × Nat × Nat)
  /-- the 32 bytes of the fabric block; none: no acknowledge, wrong count or wrong PEC -/
  fabricBlock    : Option (List Byte)
  /-- R544: cause of a fatal error met on the way -/
  fatal          : Option Nat
  deriving DecidableEq, Repr

/-- A Windway frame (R468, R469). -/
structure Frame where
  type    : Nat
  vc      : Nat
  hops    : Nat
  dst     : Nat
  src     : Nat
  lseq    : Nat
  lack    : Nat
  credit  : Word32
  arg0    : Word64
  tag     : Word32
  arg1    : Word32
  payload : List Byte
  /-- trailer bytes 0 to 3 -/
  crc     : Word32
  /-- no FEC codeword the frame spans was uncorrectable (R471) -/
  fecOk   : Bool
  deriving DecidableEq, Repr

/-- 64-bit integer and logical operations of the control core (R346; the list is log 7). -/
inductive AluOp | add | sub | mul | and | or | xor | shl | shr | sar | cmpEq | cmpLt | cmpLtu
  deriving DecidableEq, Repr

/-- LF32 operations of the control core (R346; log 7). -/
inductive LfOp | add | sub | mul
  deriving DecidableEq, Repr

/-- Branch conditions (R346; log 7). -/
inductive BranchCond | always | eq | ne | lt | ltu
  deriving DecidableEq, Repr

/-- The control core's instructions that touch neither memory nor engines (R346; log 7). -/
inductive ScalarOp
  | alu (op : AluOp) (rd ra rb : Nat)
  | const (rd : Nat) (imm : Word64)
  | lf (op : LfOp) (rd ra rb : Nat)
  | branch (c : BranchCond) (ra rb : Nat) (target : Word64)
  deriving DecidableEq, Repr

/-- What WAIT waits for (R346). -/
inductive WaitFor
  /-- until the word at the address in ra differs from rb, or the control cycles given have passed -/
  | word (ra rb : Nat) (cycles : Option Nat)
  | cycles (n : Nat)
  deriving DecidableEq, Repr

/-- An emergency cause of R495; a thermal cause names its die or stack. -/
inductive Cause
  | power
  | thermalDie (kind : DieKind) (die : Nat)
  | thermalStack (tier : Space) (stack : Nat)
  | inputVoltage
  deriving DecidableEq, Repr

/-- A switched power domain (R500). -/
inductive Domain
  | cluster (e : ClusterId)
  | conventional (cdie : Nat)
  | update (kind : DieKind) (die : Nat)
  | windwayPort (p : Nat)
  | consort (xdie : Nat)
  | engines (xdie : Nat)
  deriving DecidableEq, Repr

/-- An engine that holds its own copy of the double-banked tables (R187). -/
inductive TableUser
  | matrix (e : ClusterId)
  | vector (e : ClusterId)
  | update (kind : DieKind) (die : Nat)
  | routing (xdie : Nat)
  | consort (xdie : Nat)
  deriving DecidableEq, Repr

/-- The commands of the block: one constructor per row of spec/opcode_table.json. -/
inductive Instr
  | powerOn (refsStable : Bool) (coldestC : Int) (discharged : Bool)
  | vinLoss
  | refclkLoss
  | perst (lowNs : Nat)
  | coldReset (lowNs : Nat)
  /-- the pin released last reports 1 or 2 (R517), the partner's working lanes and top rate code, dies that fail the ROM's check, fuse rows lost -/
  | resetEnd (coldLast : Bool) (lanes : BitVec 16) (rate : Nat) (failedDie : Option (DieKind × Nat)) (fusesBad : Bool)
  | linkChange (lanes : BitVec 16) (rate : Nat)
  | l1Entry
  | d3hotEntry
  | d0Entry
  | functionLevelReset
  | busMasterEnable
  | msixUnmask (u : Unmask)
  | hostCompletionTimeout (request : Nat)
  | hostReadCompletion (request : Nat) (answer : Received HostCompletion)
  | unexpectedCompletion
  | doorbellRing (hi : Bool) (value : Word32)
  | bar2BaseLo (value : Word32)
  | lockPtBase
  | lockFwRegion
  | lockDebug
  | lockFaultInj
  | lockShelving
  | deviceReset (value : Word32)
  | bar2FaultClear (sameCycle : Option (Nat × Bool))
  | registerWrite (offset : Nat) (data : Received (List Byte))
  | bar0BadAccess (offset size : Nat) (write : Bool)
  | heartbeat (carrel : Nat) (value : Word32)
  | cplHead (carrel : Nat) (value : Word32)
  | bar2Read (offset : Nat) (length : Received Nat)
  | bar2Write (offset : Nat) (data : List Byte) (arrival : Arrival)
  | carrelEmptyRing (carrel : Nat)
  | badOpcode (carrel : Nat)
  /-- sigOk: the image's SIGNATURE verifies under the key that KEY_INDEX names (R99, log 17) -/
  | loadFirmware (host : HostView) (sigOk : Bool)
  | firmwareBringUp (report : StartReport)
  | fabricReadRetry (block : Option (List Byte))
  | attach
  | detach
  | setOrphanTimeout
  | openCarrel
  | closeCarrel
  | getVersion
  | setMirror (carrel : Nat)
  | getTimestamp (carrel : Nat)
  | stageFirmware (host : HostView) (sigOk : Bool)
  | activateFirmware
  | handoverBegin
  | handoverComplete
  | handoverTimeout
  | deferredTimeout (elapsedS : Nat)
  | reloadTable (carrel : Nat)
  | bankSwap (user : TableUser) (tableId : Nat)
  | map (carrel : Nat)
  | unmap (carrel : Nat)
  | protect (carrel : Nat)
  | setPtBase
  | setShelvingKey (drawn : BitVec 128)
  | dmaCopy (carrel : Nat)
  | faultReply (carrel : Nat)
  | createQueue (carrel : Nat)
  | destroyQueue (carrel : Nat)
  | submit (carrel : Nat) (host : HostView)
  | cancel (carrel : Nat)
  | queueItemHandoff (queue : Nat)
  | joinGroup (carrel : Nat)
  | setBuckets (carrel : Nat)
  | leaveGroup (carrel : Nat)
  | setSchedule (carrel : Nat)
  | setFreezeMask (carrel : Nat)
  | setRoutingDevice (carrel : Nat)
  | setRoutingLayer (carrel : Nat)
  | setLayerPolicy (carrel : Nat)
  | setPowerPolicy
  | getTelemetry (carrel : Nat)
  | injectWindway
  | injectNearEcc
  | injectDepositoryEcc
  | injectSpine
  | injectSram
  | setDebug
  | debugRead (carrel : Nat)
  | getIdentity (engineOk : Bool)
  | attest (engineOk : Bool)
  | readLedger
  | clearCounters (carrel : Nat)
  | orphanTimeout (ageMs : Nat)
  | scalarInstruction (t : ThreadId) (op : ScalarOp)
  | ldB (t : ThreadId) (rd ra : Nat)
  | ldH (t : ThreadId) (rd ra : Nat)
  | ldW (t : ThreadId) (rd ra : Nat)
  | ldD (t : ThreadId) (rd ra : Nat)
  | loadDataReturn (t : ThreadId)
  | stB (t : ThreadId) (rs ra : Nat)
  | stH (t : ThreadId) (rs ra : Nat)
  | stW (t : ThreadId) (rs ra : Nat)
  | stD (t : ThreadId) (rs ra : Nat)
  | amoAdd (t : ThreadId) (rd ra rb : Nat)
  | amoSwap (t : ThreadId) (rd ra rb : Nat)
  | amoCas (t : ThreadId) (rd ra rb rc : Nat)
  | amoMax (t : ThreadId) (rd ra rb : Nat)
  | issueM (t : ThreadId) (ra : Nat)
  | issueV (t : ThreadId) (ra : Nat)
  | issueR (t : ThreadId) (ra : Nat)
  | issueAccepted (t : ThreadId)
  | fenceQ (t : ThreadId)
  | fenceC (t : ThreadId)
  | fenceD (t : ThreadId)
  | fenceS (t : ThreadId)
  | fenceComplete (t : ThreadId)
  | wait (t : ThreadId) (w : WaitFor)
  | waitWake (t : ThreadId) (cyclesPassed : Nat)
  | cyc (t : ThreadId) (rd : Nat)
  | endThread (t : ThreadId)
  | illegalInstruction (t : ThreadId)
  | threadLaunch (queue : Nat)
  /-- groups streamed in this step; none: all that are left -/
  | matmul (e : ClusterId) (groups : Option Nat)
  | matmulEnd (e : ClusterId)
  | drain (e : ClusterId)
  | drainEnd (e : ClusterId)
  | inputOperation (cdie : Nat)
  | inputOperationEnd (cdie : Nat)
  | preemption (e : ClusterId)
  | preemptedResume (e : ClusterId)
  | vCopy (e : ClusterId)
  | vAdd (e : ClusterId)
  | vSub (e : ClusterId)
  | vMul (e : ClusterId)
  | vFma (e : ClusterId)
  | vMax (e : ClusterId)
  | vMin (e : ClusterId)
  | vAbs (e : ClusterId)
  | vNeg (e : ClusterId)
  | vScale (e : ClusterId)
  | vSelect (e : ClusterId)
  | vCmpEq (e : ClusterId)
  | vCmpLt (e : ClusterId)
  | vCmpLe (e : ClusterId)
  | vCmpUn (e : ClusterId)
  | vAnd (e : ClusterId)
  | vOr (e : ClusterId)
  | vXor (e : ClusterId)
  | vNot (e : ClusterId)
  | vGather (e : ClusterId)
  | vScatter (e : ClusterId)
  | vRsum (e : ClusterId)
  | vRmax (e : ClusterId)
  | vRmin (e : ClusterId)
  | vRstats (e : ClusterId)
  | vExp2 (e : ClusterId)
  | vLog2 (e : ClusterId)
  | vExp (e : ClusterId)
  | vLog (e : ClusterId)
  | vSqrt (e : ClusterId)
  | vRecip (e : ClusterId)
  | vRsqrt (e : ClusterId)
  | vSigmoid (e : ClusterId)
  | vTanh (e : ClusterId)
  | vGelu (e : ClusterId)
  | vSin (e : ClusterId)
  | vCos (e : ClusterId)
  | vPoscode (e : ClusterId)
  | vSmmerge (e : ClusterId)
  | vSmexp (e : ClusterId)
  | vSmnorm (e : ClusterId)
  | vSmprob (e : ClusterId)
  | vStmerge (e : ClusterId)
  | vNormapply (e : ClusterId)
  | vMprog (e : ClusterId)
  | vectorEnd (e : ClusterId)
  | route (xdie : Nat)
  | routeHoldRelease (xdie : Nat)
  | recall (xdie : Nat)
  | release (xdie : Nat)
  | routingEnd (xdie : Nat)
  | faultReport (r : Requester)
  | dmaStart (queue xdie engine : Nat)
  | dmaEnd (xdie engine : Nat)
  | reduceGradient (xdie : Nat)
  | reduceStats (xdie : Nat)
  | accumulateBurst (xdie group source : Nat)
  | burstReoffer (xdie group source : Nat)
  | groupTimeout (group : Nat)
  | updateStart (layer : Nat)
  | updatePass2 (layer : Nat)
  | updateEnd (layer : Nat)
  | portTrained (port : Nat) (lanes : BitVec 4)
  | linkInfo (port : Nat) (frame : Frame)
  | wwRead (port : Nat) (frame : Frame)
  | wwWrite (port : Nat) (frame : Frame)
  | wwAmo (port : Nat) (frame : Frame)
  | wwResponse (port : Nat) (frame : Frame)
  | wwBucket (port : Nat) (frame : Frame)
  | wwGrant (port : Nat) (frame : Frame)
  | wwResult (port : Nat) (frame : Frame)
  | wwStatsIn (port : Nat) (frame : Frame)
  | wwStatsOut (port : Nat) (frame : Frame)
  | wwNak (port : Nat) (frame : Frame)
  | wwIdle (port : Nat) (frame : Frame)
  | frameDiscard (port : Nat) (frame : Frame)
  | idleSend (port : Nat)
  | retryTimeout (port : Nat)
  | portRetrain (port : Nat)
  | portDown (port : Nat)
  | trainingRetry (port : Nat)
  | remoteTimeout (tag : Nat)
  /-- averages over 50 µs and 1 ms in watts, VIN in millivolts, and whether VIN has been outside 43 to 59 V for 10 µs -/
  | bellowsSample (avg50us avg1ms vinMv : Nat) (outFor10us : Bool)
  | dieSensorRead (kind : DieKind) (die : Nat) (tempC : Int)
  | stackSensorRead (tier : Space) (stack : Nat) (tempC : Int)
  | emergencyClear (cause : Cause) (durationMs : Nat)
  | skipStepDown (cdie : Nat)
  | powerLoopTick (avg10ms : Nat)
  | timestampRecorrelate
  | domainGate (d : Domain)
  | domainWake (d : Domain)
  /-- the bits of the burst that have come out wrong, by lane and transfer (R387) -/
  | scrub (tier : Space) (stack channel : Nat) (wrong : List (Nat × Nat))
  /-- how many bits of the protected word are wrong; inKey: it holds the key or LINK of a flow-table or spill entry (R337) -/
  | sramScrub (place : SramPlace) (inKey : Bool) (bits : Nat)
  /-- HOLD_NS of each stack, as measured (R396); which of the offsets that are sampled equally often a record names (R395) -/
  | hotStackWindow (tier : Space) (holdNs : List Word64) (tie : Nat)
  | spineFlitReplay (link dir : Nat)
  | spineLaneRetire (link dir lane : Nat)
  | smbStatus (pecOk : Bool)
  | smbPowerW (pecOk : Bool)
  | smbVinMv (pecOk : Bool)
  | smbTempMaxC (pecOk : Bool)
  | smbPmaxW (pecOk : Bool)
  | smbTripSite (pecOk : Bool)
  | smbSerial (pecOk : Bool)
  | configurationWrite (w : ConfigWrite)
  | l1Exit
  deriving DecidableEq, Repr

end Sys2Proof
end

