-- ==== Sys2Proof/WellFormed.lean ====
section
/-! DEFINITION. When a command's operands lie within what the largest part can name. A command that names a unit this part
lacks is well formed and changes nothing (log 5). -/

namespace Sys2Proof

/-- R3, R21, R22: cluster 0 to 15 of C-die 0 to 7. -/
def wfCluster (e : ClusterId) : Bool := e.cdie < 8 && e.cluster < 16

/-- R341: thread 0 to 15 of a cluster. -/
def wfThread (t : ThreadId) : Bool := wfCluster t.at_ && t.thread < 16

/-- R341: scalar registers s0 to s31. -/
def wfReg (r : Nat) : Bool := r < 32

/-- R69: carrels 0 to 63. -/
def wfCarrel (k : Nat) : Bool := k < 64

/-- R21: X-dies 0 to 3. -/
def wfXDie (x : Nat) : Bool := x < 4

/-- R5, R21: die numbers of a kind. -/
def wfDie (k : DieKind) (die : Nat) : Bool :=
  match k with
  | .c => die < 8
  | .x => die < 4
  | .d => die < 16

/-- R457: ports 0 to 15. -/
def wfPort (p : Nat) : Bool := p < 16

/-- R343: queues 0 to 1,023. -/
def wfQueue (q : Nat) : Bool := q < 1024

/-- R29: stacks of a tier, 0 to 31; the local memories have none. -/
def wfStack (t : Space) (k : Nat) : Bool :=
  match t with
  | .near => k < 32
  | .dep => k < 32
  | .loc => false

/-- R61: SPINE_LINK instances of the largest part, 0 to 36, and a direction. -/
def wfLink (link dir : Nat) : Bool := link < 37 && dir < 2

/-- Host bus addresses have 64 bits. -/
def wfHost (v : HostView) : Bool := v.all fun g => g.base + g.bytes.length ≤ 2 ^ 64

/-- R469: the fields of a frame within their widths; the payload a multiple of 8 bytes, at most 512 (R468). -/
def wfFrame (f : Frame) : Bool :=
  f.type < 16 && f.vc < 4 && f.hops < 256 && f.dst < 4096 && f.src < 4096 && f.lseq < 65536 && f.lack < 65536
    && f.payload.length ≤ 512 && f.payload.length % 8 == 0

/-- R346: the registers a scalar instruction names. -/
def wfScalar : ScalarOp → Bool
  | .alu _ rd ra rb => wfReg rd && wfReg ra && wfReg rb
  | .const rd _ => wfReg rd
  | .lf _ rd ra rb => wfReg rd && wfReg ra && wfReg rb
  | .branch _ ra rb _ => wfReg ra && wfReg rb

/-- R346: WAIT counts at most 2^24 control cycles. -/
def wfWait : WaitFor → Bool
  | .word ra rb c => wfReg ra && wfReg rb && (match c with | none => true | some n => n ≤ 2 ^ 24)
  | .cycles n => n ≤ 2 ^ 24

/-- R495: a thermal cause names a die or a stack. -/
def wfCause : Cause → Bool
  | .power => true
  | .thermalDie k d => wfDie k d
  | .thermalStack t k => wfStack t k
  | .inputVoltage => true

/-- R500: the switched domains. -/
def wfDomain : Domain → Bool
  | .cluster e => wfCluster e
  | .conventional c => c < 8
  | .update k d => wfDie k d && (match k with | .x => false | .c => true | .d => true)
  | .windwayPort p => wfPort p
  | .consort x => wfXDie x
  | .engines x => wfXDie x

/-- R187: the holders of table copies. -/
def wfTableUser : TableUser → Bool
  | .matrix e => wfCluster e
  | .vector e => wfCluster e
  | .update k d => wfDie k d && (match k with | .x => false | .c => true | .d => true)
  | .routing x => wfXDie x
  | .consort x => wfXDie x

/-- R370, R373: the requesters. -/
def wfRequester : Requester → Bool
  | .thread t => wfThread t
  | .matrix e => wfCluster e
  | .vector e => wfCluster e
  | .conventional c => c < 8
  | .routing x => wfXDie x
  | .dma x e => wfXDie x && e < 4
  | .consort x => wfXDie x
  | .port die unit => (die < 8 && unit < 4) || (die < 16 && unit == 8)
  | .update _ => true
  | .peer _ => true

/-- R545: a place in SRAM: flow-table entries are 262,144 (R332). -/
def wfPlace : SramPlace → Bool
  | .word e _ => wfCluster e
  | .accumulator e => wfCluster e
  | .entry r => wfRequester r
  | .table r => wfRequester r
  | .flow i => i < 2 ^ 18
  | .spill _ => true
  | .translation k d => wfDie k d
  | .slot d u _ _ _ => wfRequester (.port d u)

/-- R387: wrong bits of a burst, each on one of 18 lanes in one of 32 transfers, and named once. -/
def wfWrong (l : List (Nat × Nat)) : Bool := l.all (fun b => b.1 < 18 && b.2 < 32) && l.eraseDups.length == l.length

/-- R85: what is unmasked. -/
def wfUnmask : Unmask → Bool
  | .vector v => v < 256
  | .function => true
  | .enable => true

/-- R67, R68: the values software writes to configuration space. -/
def wfConfig : ConfigWrite → Bool
  | .maxPayload c => c < 8
  | .maxReadRequest c => c < 8
  | .completionTimeout v => v < 16
  | .busMaster _ => true
  | .memorySpace _ => true
  | .msixEnable _ => true
  | .functionMask _ => true
  | .ecrcGenerate _ => true
  | .ecrcCheck _ => true
  | .tenBitTag _ => true
  | .relaxedOrdering _ => true
  | .aspmL1 _ => true
  | .aerClear _ => true
  | .aerSeverity _ _ => true
  | .aerCorrectedClear _ => true

/-- R462, R95: what a start brings: unit numbers in range, and a fabric block of 32 bytes where there is one. -/
def wfReport (r : StartReport) : Bool :=
  r.failedClusters.all (fun p => p.1 < 8 && p.2 < 18) && r.failedPlanes.all (fun p => p.1 < 3 && p.2.1 < 16 && p.2.2 < 9)
    && r.failedLanes.all (fun p => p.1 < 37 && p.2.1 < 2)
    && (match r.fatal with | none => true | some c => c < 3)

/-- R29: a tier, which has stacks. -/
def wfTier (t : Space) : Bool :=
  match t with
  | .near => true
  | .dep => true
  | .loc => false

/-- A command is well formed. -/
def Instr.wellFormed : Instr → Bool
  | .powerOn _ _ _ => true
  | .vinLoss => true
  | .refclkLoss => true
  | .perst _ => true
  | .coldReset _ => true
  | .resetEnd _ _ rate d _ => rate < 6 && (match d with | none => true | some p => wfDie p.1 p.2)
  | .linkChange _ rate => rate < 6
  | .l1Entry => true
  | .d3hotEntry => true
  | .d0Entry => true
  | .functionLevelReset => true
  | .busMasterEnable => true
  | .msixUnmask u => wfUnmask u
  | .hostCompletionTimeout _ => true
  | .hostReadCompletion _ _ => true
  | .unexpectedCompletion => true
  | .doorbellRing _ _ => true
  | .bar2BaseLo _ => true
  | .lockPtBase => true
  | .lockFwRegion => true
  | .lockDebug => true
  | .lockFaultInj => true
  | .lockShelving => true
  | .deviceReset _ => true
  | .bar2FaultClear c => (match c with | none => true | some p => p.1 < 2 ^ 57)
  | .registerWrite off d => 0 < d.what.length && off + d.what.length ≤ 2 ^ 24
  | .bar0BadAccess off n _ => 0 < n && off + n ≤ 2 ^ 24
  | .heartbeat k _ => wfCarrel k
  | .cplHead k _ => wfCarrel k
  | .bar2Read off n => off + n.what ≤ 2 ^ 36
  | .bar2Write off d _ => off + d.length ≤ 2 ^ 36
  | .carrelEmptyRing k => wfCarrel k
  | .badOpcode k => wfCarrel k
  | .loadFirmware h _ => wfHost h
  | .firmwareBringUp r => wfReport r
  | .fabricReadRetry b => (match b with | none => true | some l => l.length == 32)
  | .attach => true
  | .detach => true
  | .setOrphanTimeout => true
  | .openCarrel => true
  | .closeCarrel => true
  | .getVersion => true
  | .setMirror k => wfCarrel k
  | .getTimestamp k => wfCarrel k
  | .stageFirmware h _ => wfHost h
  | .activateFirmware => true
  | .handoverBegin => true
  | .handoverComplete => true
  | .handoverTimeout => true
  | .deferredTimeout _ => true
  | .reloadTable k => wfCarrel k
  | .bankSwap u id => wfTableUser u && 1 ≤ id && id ≤ 3
  | .map k => wfCarrel k
  | .unmap k => wfCarrel k
  | .protect k => wfCarrel k
  | .setPtBase => true
  | .setShelvingKey _ => true
  | .dmaCopy k => wfCarrel k
  | .faultReply k => wfCarrel k
  | .createQueue k => wfCarrel k
  | .destroyQueue k => wfCarrel k
  | .submit k h => wfCarrel k && wfHost h
  | .cancel k => wfCarrel k
  | .queueItemHandoff q => wfQueue q
  | .joinGroup k => wfCarrel k
  | .setBuckets k => wfCarrel k
  | .leaveGroup k => wfCarrel k
  | .setSchedule k => wfCarrel k
  | .setFreezeMask k => wfCarrel k
  | .setRoutingDevice k => wfCarrel k
  | .setRoutingLayer k => wfCarrel k
  | .setLayerPolicy k => wfCarrel k
  | .setPowerPolicy => true
  | .getTelemetry k => wfCarrel k
  | .injectWindway => true
  | .injectNearEcc => true
  | .injectDepositoryEcc => true
  | .injectSpine => true
  | .injectSram => true
  | .setDebug => true
  | .debugRead k => wfCarrel k
  | .getIdentity _ => true
  | .attest _ => true
  | .readLedger => true
  | .clearCounters k => wfCarrel k
  | .orphanTimeout _ => true
  | .scalarInstruction t op => wfThread t && wfScalar op
  | .ldB t rd ra => wfThread t && wfReg rd && wfReg ra
  | .ldH t rd ra => wfThread t && wfReg rd && wfReg ra
  | .ldW t rd ra => wfThread t && wfReg rd && wfReg ra
  | .ldD t rd ra => wfThread t && wfReg rd && wfReg ra
  | .loadDataReturn t => wfThread t
  | .stB t rs ra => wfThread t && wfReg rs && wfReg ra
  | .stH t rs ra => wfThread t && wfReg rs && wfReg ra
  | .stW t rs ra => wfThread t && wfReg rs && wfReg ra
  | .stD t rs ra => wfThread t && wfReg rs && wfReg ra
  | .amoAdd t rd ra rb => wfThread t && wfReg rd && wfReg ra && wfReg rb
  | .amoSwap t rd ra rb => wfThread t && wfReg rd && wfReg ra && wfReg rb
  | .amoCas t rd ra rb rc => wfThread t && wfReg rd && wfReg ra && wfReg rb && wfReg rc
  | .amoMax t rd ra rb => wfThread t && wfReg rd && wfReg ra && wfReg rb
  | .issueM t ra => wfThread t && wfReg ra
  | .issueV t ra => wfThread t && wfReg ra
  | .issueR t ra => wfThread t && wfReg ra
  | .issueAccepted t => wfThread t
  | .fenceQ t => wfThread t
  | .fenceC t => wfThread t
  | .fenceD t => wfThread t
  | .fenceS t => wfThread t
  | .fenceComplete t => wfThread t
  | .wait t w => wfThread t && wfWait w
  | .waitWake t _ => wfThread t
  | .cyc t rd => wfThread t && wfReg rd
  | .endThread t => wfThread t
  | .illegalInstruction t => wfThread t
  | .threadLaunch q => wfQueue q
  | .matmul e _ => wfCluster e
  | .matmulEnd e => wfCluster e
  | .drain e => wfCluster e
  | .drainEnd e => wfCluster e
  | .inputOperation c => c < 8
  | .inputOperationEnd c => c < 8
  | .preemption e => wfCluster e
  | .preemptedResume e => wfCluster e
  | .vCopy e => wfCluster e
  | .vAdd e => wfCluster e
  | .vSub e => wfCluster e
  | .vMul e => wfCluster e
  | .vFma e => wfCluster e
  | .vMax e => wfCluster e
  | .vMin e => wfCluster e
  | .vAbs e => wfCluster e
  | .vNeg e => wfCluster e
  | .vScale e => wfCluster e
  | .vSelect e => wfCluster e
  | .vCmpEq e => wfCluster e
  | .vCmpLt e => wfCluster e
  | .vCmpLe e => wfCluster e
  | .vCmpUn e => wfCluster e
  | .vAnd e => wfCluster e
  | .vOr e => wfCluster e
  | .vXor e => wfCluster e
  | .vNot e => wfCluster e
  | .vGather e => wfCluster e
  | .vScatter e => wfCluster e
  | .vRsum e => wfCluster e
  | .vRmax e => wfCluster e
  | .vRmin e => wfCluster e
  | .vRstats e => wfCluster e
  | .vExp2 e => wfCluster e
  | .vLog2 e => wfCluster e
  | .vExp e => wfCluster e
  | .vLog e => wfCluster e
  | .vSqrt e => wfCluster e
  | .vRecip e => wfCluster e
  | .vRsqrt e => wfCluster e
  | .vSigmoid e => wfCluster e
  | .vTanh e => wfCluster e
  | .vGelu e => wfCluster e
  | .vSin e => wfCluster e
  | .vCos e => wfCluster e
  | .vPoscode e => wfCluster e
  | .vSmmerge e => wfCluster e
  | .vSmexp e => wfCluster e
  | .vSmnorm e => wfCluster e
  | .vSmprob e => wfCluster e
  | .vStmerge e => wfCluster e
  | .vNormapply e => wfCluster e
  | .vMprog e => wfCluster e
  | .vectorEnd e => wfCluster e
  | .route x => wfXDie x
  | .routeHoldRelease x => wfXDie x
  | .recall x => wfXDie x
  | .release x => wfXDie x
  | .routingEnd x => wfXDie x
  | .faultReport r => wfRequester r
  | .dmaStart q x e => wfQueue q && wfXDie x && e < 4
  | .dmaEnd x e => wfXDie x && e < 4
  | .reduceGradient x => wfXDie x
  | .reduceStats x => wfXDie x
  | .accumulateBurst x _ src => wfXDie x && src < 4096
  | .burstReoffer x _ src => wfXDie x && src < 4096
  | .groupTimeout _ => true
  | .updateStart _ => true
  | .updatePass2 _ => true
  | .updateEnd _ => true
  | .portTrained p _ => wfPort p
  | .linkInfo p f => wfPort p && wfFrame f
  | .wwRead p f => wfPort p && wfFrame f
  | .wwWrite p f => wfPort p && wfFrame f
  | .wwAmo p f => wfPort p && wfFrame f
  | .wwResponse p f => wfPort p && wfFrame f
  | .wwBucket p f => wfPort p && wfFrame f
  | .wwGrant p f => wfPort p && wfFrame f
  | .wwResult p f => wfPort p && wfFrame f
  | .wwStatsIn p f => wfPort p && wfFrame f
  | .wwStatsOut p f => wfPort p && wfFrame f
  | .wwNak p f => wfPort p && wfFrame f
  | .wwIdle p f => wfPort p && wfFrame f
  | .frameDiscard p f => wfPort p && wfFrame f
  | .idleSend p => wfPort p
  | .retryTimeout p => wfPort p
  | .portRetrain p => wfPort p
  | .portDown p => wfPort p
  | .trainingRetry p => wfPort p
  | .remoteTimeout _ => true
  | .bellowsSample _ _ _ _ => true
  | .dieSensorRead k d _ => wfDie k d
  | .stackSensorRead t k _ => wfStack t k
  | .emergencyClear c _ => wfCause c
  | .skipStepDown c => c < 8
  | .powerLoopTick _ => true
  | .timestampRecorrelate => true
  | .domainGate d => wfDomain d
  | .domainWake d => wfDomain d
  | .scrub t k c w => wfStack t k && c < 8 && wfWrong w
  | .sramScrub p _ bits => wfPlace p && bits ≤ 2
  | .hotStackWindow t _ _ => wfTier t
  | .spineFlitReplay l d => wfLink l d
  | .spineLaneRetire l d _ => wfLink l d
  | .smbStatus _ => true
  | .smbPowerW _ => true
  | .smbVinMv _ => true
  | .smbTempMaxC _ => true
  | .smbPmaxW _ => true
  | .smbTripSite _ => true
  | .smbSerial _ => true
  | .configurationWrite w => wfConfig w
  | .l1Exit => true

end Sys2Proof
end

