-- ==== Sys2Proof/Decode.lean ====
section
/-! DEFINITION. The command a word spells. The opcode table gives no row any bits: every command is an event named with its
operands, so no word spells one. -/

namespace Sys2Proof

/-- The command that a word spells by the table's bits: none, for every word, since no row of the table gives bits. -/
def decodeTableWord (_nbits _w : Nat) : Option Instr := none

end Sys2Proof
end

