-- ==== Sys2Proof/Machine/Bits.lean ====
section
/-! DEFINITION. Bit fields, little-endian bytes (R8), the CRC-32 of R49, the CRC-8 of SMBus (R522), SHA-384 (R97, R528) and
Flutter (R179), on natural numbers. -/

namespace Sys2Proof.Machine

/-- Bits [hi:lo] of x. -/
def field (x hi lo : Nat) : Nat := (x >>> lo) % 2 ^ (hi + 1 - lo)

/-- Bit n of x. -/
def bitAt (x n : Nat) : Bool := (x >>> n) % 2 == 1

/-- 0 or 1. -/
def bit (b : Bool) : Nat := if b then 1 else 0

/-- Two's complement of n bits, as an integer. -/
def signedOf (n x : Nat) : Int := if x % 2 ^ n < 2 ^ (n - 1) then Int.ofNat (x % 2 ^ n) else Int.ofNat (x % 2 ^ n) - 2 ^ n

/-- An integer's two's complement of n bits. -/
def unsignedOf (n : Nat) (x : Int) : Nat := (x % (2 ^ n : Int)).toNat

/-- R8: the value of bytes, lowest first. -/
def leNat : List Byte → Nat
  | [] => 0
  | b :: bs => b.toNat + 256 * leNat bs

/-- R8: the low n bytes of v, lowest first. -/
def leBytes : Nat → Nat → List Byte
  | 0, _ => []
  | n + 1, v => BitVec.ofNat 8 v :: leBytes n (v / 256)

/-- n bytes of v, highest first. -/
def beBytes (n v : Nat) : List Byte := (leBytes n v).reverse

/-- The value of bytes, highest first. -/
def beNat (bs : List Byte) : Nat := leNat bs.reverse

/-- The n-byte value at an offset of a byte list. -/
def getLe (bs : List Byte) (off n : Nat) : Nat := leNat ((bs.drop off).take n)

def get8 (bs : List Byte) (off : Nat) : Nat := getLe bs off 1
def get16 (bs : List Byte) (off : Nat) : Nat := getLe bs off 2
def get32 (bs : List Byte) (off : Nat) : Nat := getLe bs off 4
def get64 (bs : List Byte) (off : Nat) : Nat := getLe bs off 8

/-- n bytes of zero. -/
def zeros (n : Nat) : List Byte := List.replicate n 0#8

/-- bs cut or filled with zeros to n bytes. -/
def padTo (n : Nat) (bs : List Byte) : List Byte := (bs ++ zeros (n - bs.length)).take n

/-- bs with new written over it from an offset (bytes past the end are dropped). -/
def overlay (bs : List Byte) (off : Nat) (new : List Byte) : List Byte :=
  (bs.take off ++ new ++ bs.drop (off + new.length)).take bs.length

/-- A list in pieces of n (the last may be shorter); fuel bounds the number of pieces. -/
def chunks {α : Type} (n : Nat) : Nat → List α → List (List α)
  | 0, _ => []
  | fuel + 1, xs => if xs.isEmpty then [] else xs.take n :: chunks n fuel (xs.drop n)

/-- The least multiple of n at or above x. -/
def roundUp (x n : Nat) : Nat := (x + n - 1) / n * n

/-- ⌈a/b⌉. -/
def ceilDiv (a b : Nat) : Nat := (a + b - 1) / b

/-- One reflected bit of the CRC-32. -/
def crcBit (c : Nat) : Nat := if c % 2 == 1 then Nat.xor (c / 2) 0xEDB88320 else c / 2

def crcByte (c : Nat) (b : Byte) : Nat :=
  crcBit (crcBit (crcBit (crcBit (crcBit (crcBit (crcBit (crcBit (Nat.xor c b.toNat))))))))

/-- R49: CRC-32 of IEEE 802.3. -/
def crc32 (bs : List Byte) : Nat := Nat.xor (bs.foldl crcByte 0xFFFFFFFF) 0xFFFFFFFF

def pecBit (c : Nat) : Nat := if 128 ≤ c % 256 then Nat.xor (c * 2 % 256) 0x07 else c * 2 % 256

/-- R522: the Packet Error Code, polynomial 0x07, initial value 0. -/
def pec (bs : List Byte) : Nat :=
  bs.foldl (fun c b => pecBit (pecBit (pecBit (pecBit (pecBit (pecBit (pecBit (pecBit (Nat.xor c b.toNat)))))))))  0

def mask64 (x : Nat) : Nat := x % 2 ^ 64

/-- x rotated left by n in 64 bits. -/
def rotl64 (x n : Nat) : Nat := mask64 (x * 2 ^ n) + x / 2 ^ (64 - n)

def rotr64 (x n : Nat) : Nat := rotl64 x (64 - n)

/-- R179: one round of Flutter. -/
def flutterRound (r : Nat) (xk : Nat × Nat) : Nat × Nat :=
  let x := mask64 (xk.1 + xk.2 + r)
  let x := Nat.xor x (x >>> 31)
  let x := mask64 (x * 0xE71B8C350D9F42A3)
  let x := Nat.xor x (x >>> 27)
  (x, rotl64 xk.2 17)

/-- R179: the Flutter output for a 64-bit seed, a 32-bit stream and a 48-bit counter. -/
def flutter (seed stream ctr : Nat) : Nat :=
  ((List.range 6).foldl (fun xk r => flutterRound r xk)
    (ctr, Nat.xor seed (mask64 (stream * 0x8F3D1B6E57A2C4D9)))).1

/-- R180: draw d of a stream, 16 bits. -/
def draw (seed base stream d : Nat) : Nat :=
  field (flutter seed stream ((base + d / 4) % 2 ^ 48)) (16 * (d % 4) + 15) (16 * (d % 4))

/-- The integer k-th root of n, bit by bit, below acc + 2^bits. -/
def rootBits (k n : Nat) : Nat → Nat → Nat
  | 0, acc => acc
  | b + 1, acc => rootBits k n b (if (acc + 2 ^ b) ^ k ≤ n then acc + 2 ^ b else acc)

/-- The primes of FIPS 180-4. -/
def shaPrimes : List Nat :=
  [2, 3, 5, 7, 11, 13, 17, 19, 23, 29, 31, 37, 41, 43, 47, 53, 59, 61, 67, 71, 73, 79, 83, 89, 97, 101, 103, 107, 109, 113, 127,
    131, 137, 139, 149, 151, 157, 163, 167, 173]
  ++ [179, 181, 191, 193, 197, 199, 211, 223, 227, 229, 233, 239, 241, 251, 257, 263, 269, 271, 277, 281, 283, 293, 307, 311,
    313, 317, 331, 337, 347, 349, 353, 359, 367, 373, 379, 383, 389, 397, 401, 409]

/-- FIPS 180-4: the first 64 bits of the fractional parts of the primes' cube roots. -/
def shaK : List Nat := shaPrimes.map fun p => mask64 (rootBits 3 (p * 2 ^ 192) 68 0)

/-- FIPS 180-4: SHA-384's initial value, from the square roots of the ninth to sixteenth primes. -/
def sha384Init : List Nat := ((shaPrimes.drop 8).take 8).map fun p => mask64 (rootBits 2 (p * 2 ^ 128) 68 0)

/-- The message schedule, newest word first. -/
def shaSchedule : Nat → List Nat → List Nat
  | 0, w => w
  | n + 1, w =>
    let a := w.getD 1 0
    let b := w.getD 14 0
    let s1 := Nat.xor (Nat.xor (rotr64 a 19) (rotr64 a 61)) (a >>> 6)
    let s0 := Nat.xor (Nat.xor (rotr64 b 1) (rotr64 b 8)) (b >>> 7)
    shaSchedule n (mask64 (s1 + w.getD 6 0 + s0 + w.getD 15 0) :: w)

def shaRound (h : List Nat) (kw : Nat × Nat) : List Nat :=
  match h with
  | [a, b, c, d, e, f, g, hh] =>
    let s1 := Nat.xor (Nat.xor (rotr64 e 14) (rotr64 e 18)) (rotr64 e 41)
    let ch := Nat.xor (Nat.land e f) (Nat.land (2 ^ 64 - 1 - e) g)
    let t1 := hh + s1 + ch + kw.1 + kw.2
    let s0 := Nat.xor (Nat.xor (rotr64 a 28) (rotr64 a 34)) (rotr64 a 39)
    let mj := Nat.xor (Nat.xor (Nat.land a b) (Nat.land a c)) (Nat.land b c)
    [mask64 (t1 + s0 + mj), a, b, c, mask64 (d + t1), e, f, g]
  | _ => h

def shaBlock (ks : List Nat) (h : List Nat) (block : List Byte) : List Nat :=
  let w := (chunks 8 16 block).map beNat
  let ws := (shaSchedule 64 w.reverse).reverse
  let out := (List.zip ks ws).foldl shaRound h
  List.zipWith (fun a b => mask64 (a + b)) h out

/-- SHA-384 of FIPS 180-4: 48 bytes. -/
def sha384 (m : List Byte) : List Byte :=
  let n := m.length
  let padded := m ++ [0x80#8] ++ zeros ((239 - n % 128) % 128) ++ beBytes 16 (8 * n)
  let h := (chunks 128 (n / 128 + 2) padded).foldl (shaBlock shaK) sha384Init
  (h.take 6).flatMap (beBytes 8)

end Sys2Proof.Machine
end

