-- ==== Sys2Proof/Config.lean ====
section
/-! DEFINITION. The values the manual leaves open: constants with no body, so that nothing is provable about them. -/

namespace Sys2Proof.Config

/-- DESIGN CHOICE (log 4). A value the manual leaves undefined, or that measures time: applied to State.freeCtr, which the
use advances. -/
opaque freeValue : Nat → Word64

/-- DESIGN CHOICE (log 4). The contents of a byte the manual calls undefined (R116, R384): the tag of the event that left
it undefined, and its address. -/
opaque freeByte : Nat → Nat → Byte

/-- DESIGN CHOICE (log 24). R346, R365: AMO.MAX compares as signed; the manual does not say. -/
opaque amoMaxSigned : Bool

/-- DESIGN CHOICE (log 14). R153: inside the margin of rule G the device returns one of the two neighbours; true: the upper.
The arguments are the fraction bits of the target and the operand as numerator and denominator. -/
opaque logNeighbour : Nat → Int → Nat → Bool

/-- DESIGN CHOICE (log 15). R141: in the log domain P16 is at most 1 away from the floor; 0, 1, 2 (modulo 3) stand for
-1, 0, +1. Arguments: fraction bits of the target, discarded log fraction as numerator and denominator. -/
opaque stochSlack : Nat → Int → Nat → Nat

/-- DESIGN CHOICE (log 16). R304: where GLA's log of a sum lies inside its bound, in units of 2^-16 of the permitted interval. Arguments: the
larger log, and the ratio's numerator and denominator. -/
opaque functionPoint : Int → Int → Int → Nat

/-- DESIGN CHOICE (log 16). R293, R298: the internal result of a built-in function before it is held to its bound, from the exact value;
it rises with it, as R298 promises. Arguments: opcode and variant, the interval on which the function is monotone, further operands. -/
opaque functionCurve : Nat → Int → List Nat → (Rat →o Rat)

/-- DESIGN CHOICE (log 16). R295: the same once the tables have been replaced, their contents among the further operands. -/
opaque functionFree : Nat → Int → List Nat → (Rat →o Rat)

/-- DESIGN CHOICE (log 39). R444: P16 of FLIP where the product of lr and g, LF32 words, is NaN. -/
opaque flipNan : Nat → Nat → Nat

/-- DESIGN CHOICE (log 30). R325: whether the sum of an infinite score and the other infinity as bias ranks as +∞, by whether the score is
the positive one. -/
opaque infiniteSum : Bool → Bool

/-- DESIGN CHOICE (log 61). R387: what the decoder makes of an error in 5 or more symbols, by the wrong bits: 1 passes as clean, 2 as
corrected, else it is reported. -/
opaque eccMiss : List (Nat × Nat) → Nat

/-- DESIGN CHOICE (log 17). R530, R538: the digest of the attestation key's public point (48 bytes as a number), from the unique device secret, the
serial, ROM version, image digest and SVN. -/
opaque akId : Nat → Nat → Nat → Nat → Nat → BitVec 384

/-- DESIGN CHOICE (log 17). R538: r and s of the report's signature, from the attestation key's identity and the bytes signed. -/
opaque akSign : BitVec 384 → List Byte → BitVec 384 × BitVec 384

/-- DESIGN CHOICE (log 17). R535: the AK certificate, from the attestation key's identity. -/
opaque akCertificate : BitVec 384 → List Byte

/-- DESIGN CHOICE (log 18). R62: the start-up contents of the special-function table (TABLE_ID 2). -/
opaque functionTable : Nat → Word32

/-- DESIGN CHOICE (log 18). R62: the start-up contents of the micro-program store (TABLE_ID 3). -/
opaque programTable : Nat → Word64

/-- DESIGN CHOICE (log 9). Whether a burst of the firmware region (by number) holds a table entry that a walk for a 64 KiB span of
virtual addresses (by number) reads; the manual places the table pages nowhere (R355). -/
opaque tableSpan : Nat → Nat → Bool

/-- DESIGN CHOICE (log 9). What a burst of the firmware region holds (R544): 0 the running image, 1 the page-table pool,
2 firmware's own data, otherwise none of these. -/
opaque firmwareHolds : Nat → Nat

/-- DESIGN CHOICE (log 58). R27, R555: how many flits beyond the first an access of n bytes puts on each Spine link of its path; the manual
gives the flit no size. -/
opaque flitsOf : Nat → Nat

end Sys2Proof.Config
end

