-- ==== Sys2Proof/Machine/State.lean ====
section
/-! DEFINITION. The state of the block, as plain data: everything the manual gives the machine, its queue of waiting
commands, and the model's own fields (marked so). State.reset is the machine right after reset. -/

namespace Sys2Proof.Machine

/-! ## Fuses (R3, R12, R527, R528, R533) -/

/-- R3: the part numbers that Qortia assembles. -/
def legalPart (c x n d : Nat) : Bool :=
  [2, 4, 6, 8].contains c && (c + 3) / 4 ≤ x && x ≤ c / 2 && [2 * c, 3 * c, 4 * c].contains n && d % 2 == 0 && d ≤ 8 * x

/-- The four counts of a part number PRB-CcXxNnDd (R3). -/
structure Part where
  c : Nat
  x : Nat
  n : Nat
  d : Nat
  /-- R3: Qortia assembles no other combination -/
  legal : legalPart c x n d = true
  deriving DecidableEq, Repr

/-- What is fixed at manufacture: the fields marked F, the spares fused in (R34), the secret and the stored certificates. -/
structure Fuses where
  part         : Part
  serial       : BitVec 96
  romVersion   : Word32
  svnMin       : Word32
  revokedKeys  : BitVec 4
  revision     : Byte
  trayModel    : Word16
  /-- (C-die, physical cluster) fused off (R56) -/
  badClusters  : List (Nat × Nat)
  /-- (tier, stack, channel) replaced by a fused-in spare channel (R59) -/
  badChannels  : List (Space × Nat × Nat)
  /-- (SPINE_LINK instance, direction, lane) replaced by a fused-in spare lane (R34, R61) -/
  badLanes     : List (Nat × Nat × Nat)
  uds          : BitVec 384
  dikCert      : List Byte
  caCert       : List Byte
  deriving DecidableEq, Repr

/-! ## Pins, link, configuration space, BAR0 (R63 to R92, R513 to R517) -/

/-- The package's pins and its power state. -/
structure Pins where
  powered    : Bool
  pgood      : Bool
  inReset    : Bool
  /-- no reset has ended since PKG_PGOOD rose (R517) -/
  firstReset : Bool
  /-- a DEVICE_RESET has begun and the boot ROM has not yet run (R91, R95) -/
  softReset  : Bool
  /-- THERM_ALERT_n driven low (R520) -/
  alertLow   : Bool
  /-- THERMTRIP_n driven low (R497) -/
  tripLow    : Bool
  deriving DecidableEq, Repr

/-- The PCIe link: width in lanes (0 while down), rate code 1 to 5, L1 (R63 to R66). -/
structure Link where
  lanes : Nat
  rate  : Nat
  inL1  : Bool
  deriving DecidableEq, Repr

/-- Configuration space, as far as software writes it (R67, R68, R80 to R87). -/
structure ConfigSpace where
  memorySpace      : Bool
  busMaster        : Bool
  msixEnable       : Bool
  functionMask     : Bool
  d3hot            : Bool
  tenBitTag        : Bool
  relaxedOrdering  : Bool
  ecrcGenerate     : Bool
  ecrcCheck        : Bool
  aspmL1           : Bool
  maxPayload       : Nat
  maxReadRequest   : Nat
  completionTimeout : Nat
  /-- AER uncorrectable status, and the errors whose severity is fatal (R86) -/
  aer              : List AerError
  aerFatal         : List AerError
  /-- AER correctable status (R86) -/
  aerCorrected     : List LinkError
  deriving DecidableEq, Repr

/-- An interrupt map entry (R84). -/
structure IntEntry where
  vector  : Byte
  disable : Bool
  deriving DecidableEq, Repr

/-- An MSI-X table entry (R68). -/
structure MsixEntry where
  addr   : Word64
  data   : Word32
  masked : Bool
  deriving DecidableEq, Repr

/-- The control registers of R71, the interrupt map and the MSI-X structures. -/
structure Bar0 where
  pend           : BitVec 64
  bar2Lo         : Word32
  bar2HiStaged   : BitVec 25
  bar2HiActive   : BitVec 25
  lock           : BitVec 5
  resetCause     : BitVec 3
  bar2Fault      : Bool
  bar2FaultCount : Word32
  bar2FaultAddr  : BitVec 57
  bar2FaultWrite : Bool
  intMap         : List IntEntry
  msix           : List MsixEntry
  pba            : BitVec 256
  deriving DecidableEq, Repr

/-! ## Carrels and sessions (R101 to R121) -/

/-- A completion entry (R109); a fault event has the same words (R369). -/
structure Completion where
  seq    : Word32
  ticket : Word32
  opcode : Nat
  queue  : Nat
  tag    : Word32
  status : Nat
  detail : Nat
  lo     : Word32
  hi     : Word32
  deriving DecidableEq, Repr

/-- The response area of a carrel (R101, R110). -/
structure Response where
  opcode  : Nat
  tag     : Word32
  status  : Nat
  detail  : Nat
  ticket  : Word32
  payload : List Byte
  deriving DecidableEq, Repr

/-- One carrel. -/
structure Carrel where
  isOpen     : Bool
  reqSeq     : Word32
  rspSeq     : Word32
  cplTail    : Word32
  cplHead    : Word32
  heartbeat  : Word32
  /-- bytes 0x040 to 0x3FF that differ from 0, by offset -/
  request    : List Host.Cell
  response   : Response
  /-- ring entries written, by slot -/
  ring       : List (Nat × Completion)
  hold       : List Completion
  mirror     : Word64
  /-- completions in the ring whose mirror write waits for mastering (R80, R115) -/
  mirrorDue  : List Completion
  nextTicket : Word32
  deriving DecidableEq, Repr

/-- SESSION_STATE (R102). -/
inductive SessionState | detached | attached | orphaned
  deriving DecidableEq, Repr

/-- The session (R113, R118 to R120). -/
structure Session where
  state        : SessionState
  /-- R117: a DETACH waits for dispatched work; the items it has discarded so far -/
  detaching    : Option Nat
  id           : Word64
  orphanMs     : Nat
  ageMs        : Nat
  orphanEvents : Word32
  drvUadin     : Word32
  deriving DecidableEq, Repr

/-! ## Start-up, firmware, identity (R94 to R100, R122 to R126, R527 to R542) -/

/-- START_STATUS (R94). -/
inductive Start | off | romRunning | romReady | fwLoading | fwRejected | fwStarting | ready | shortfall | romFailed | fwFailed
  deriving DecidableEq, Repr

/-- The fields the identity engine latches of an accepted image (R532). -/
structure Image where
  build  : Word32
  svn    : Word32
  uadin  : Word32
  digest : BitVec 384
  deriving DecidableEq, Repr

/-- ACTIVATION (R102). -/
inductive Activation | none | staged | deferred | handing
  deriving DecidableEq, Repr

/-- An accepted ACTIVATE_FIRMWARE (R123). -/
structure PendingActivation where
  tag       : Word32
  ticket    : Word32
  deadlineS : Nat
  deriving DecidableEq, Repr

/-- Firmware and the identity engine. -/
structure Firmware where
  start       : Start
  detail      : Word16
  running     : Option Image
  staged      : Option Image
  /-- the image kept until an activation succeeds (R125) -/
  previous    : Option Image
  /-- the history records of the accepted LOAD_FIRMWARE, 64 bytes each (R100) -/
  history     : List (List Byte)
  activation  : Activation
  pendingAct  : Option PendingActivation
  activations : Word32
  refused     : Word32
  reportSeq   : Word32
  ak          : BitVec 384
  debugOn     : Bool
  debugEver   : Bool
  injectEver  : Bool
  nearKeySet  : Bool
  depKeySet   : Bool
  ptBaseSet   : Bool
  /-- fabric block reads that failed at this start (R524) -/
  fabricTries : Nat
  /-- the start number of R464 -/
  startId     : Word32
  /-- the end of phase 8 has passed, so timestamps count (R42) -/
  timeRuns    : Bool
  deriving DecidableEq, Repr

/-! ## Catalogue and physical origin (R44 to R62, R552) -/

/-- A Catalogue entry: the words from 0x08 on, and the mask of their origin bits (R49, R50). -/
structure CatEntry where
  type    : Nat
  inst    : Nat
  changed : Bool
  words   : List Word32
  origin  : List Word32
  deriving DecidableEq, Repr

/-- The published edition; stateCode 0 to 4 is STATE of R48. -/
structure Catalogue where
  stateCode  : Nat
  generation : Word32
  entries    : List CatEntry
  deriving DecidableEq, Repr

/-- The physical origin of a logical cluster; origin codes of R57. -/
structure ClusterOrigin where
  cdie     : Nat
  cluster  : Nat
  phys     : Nat
  origin   : Nat
  faultRef : Word32
  deriving DecidableEq, Repr

/-- A channel that is not served by its primary unit (R58). -/
structure ChannelOrigin where
  tier     : Space
  stack    : Nat
  channel  : Nat
  origin   : Nat
  faultRef : Word32
  deriving DecidableEq, Repr

/-- A spare channel (R60): state 0 unused, 1 fused in, 2 substituted, 3 failed. -/
structure SpareChannel where
  tier    : Space
  group   : Nat
  state   : Nat
  stack   : Nat
  channel : Nat
  deriving DecidableEq, Repr

/-- Where each logical unit comes from at this start. -/
structure Physical where
  clusters  : List ClusterOrigin
  channels  : List ChannelOrigin
  spares    : List SpareChannel
  /-- (SPINE_LINK instance, direction, lane) out of service as the Catalogue shows them -/
  lanes     : List (Nat × Nat × Nat)
  /-- the same, lanes retired during this run included (R545) -/
  lanesNow  : List (Nat × Nat × Nat)
  /-- crossbar planes out of service: die kind code, die, plane (C8) -/
  planes    : List (Nat × Nat × Nat)
  deriving DecidableEq, Repr

/-! ## Ledger (R546 to R549) -/

/-- The Ledger: records of 16 words, oldest first. -/
structure Ledger where
  records  : List (List Word32)
  /-- the next number; 0 before phase 7 has set it -/
  next     : Nat
  /-- the first number of this start -/
  first    : Nat
  /-- numbers of the kept records that READ_LEDGER has returned -/
  returned : List Nat
  deriving DecidableEq, Repr

/-! ## Memory (R29, R263, R378 to R396) -/

/-- Bytes lo to hi - 1 whose contents the manual calls undefined since event tag (the model's own form, log 2). -/
structure Undef where
  lo  : Nat
  hi  : Nat
  tag : Nat
  deriving DecidableEq, Repr

/-- One memory: the bytes that differ from what an unlisted address reads as (strictly rising addresses), the undefined
ranges, the poisoned units (R389: 64-byte bursts, or 64-bit words of local memory), and those of them that injection poisoned (R554). -/
structure Store where
  cells   : List Host.Cell
  undef   : List Undef
  poison  : List Nat
  planted : List Nat
  deriving DecidableEq, Repr

/-- The near tier by tier offset, the depository by tier offset, and the clusters' local memory by LOCAL offset (R351). -/
structure Memory where
  near : Store
  dep  : Store
  loc  : Store
  deriving DecidableEq, Repr

/-- The counters of a stack (R396). -/
structure StackCounters where
  readBursts  : Word64
  writeBursts : Word64
  merges      : Word64
  ce          : Word64
  ue          : Word64
  scrubs      : Word64
  hotWindows  : Word64
  throttleNs  : Word64
  holdNs      : Word64
  deriving DecidableEq, Repr

/-- A memory stack. -/
structure Stack where
  tier       : Space
  stack      : Nat
  counters   : StackCounters
  tempC      : Int
  /-- (channel, channel address) of the distinct bursts found uncorrectable since start (R392) -/
  ueBursts   : List (Nat × Nat)
  /-- corrected errors per channel since start -/
  ceByChannel : List (Nat × Nat)
  /-- channels already reported failed at this start -/
  reported   : List Nat
  scrubAddr  : List (Nat × Nat)
  hotRun     : Nat
  coldRun    : Nat
  hotMs      : Nat
  hot        : Bool
  /-- bursts of the stack and of its tier in the last 10,000 windows, newest first (R395) -/
  window     : List (Nat × Nat)
  /-- bursts since firmware last read the count (R395) -/
  bursts     : Nat
  /-- accesses since the last one sampled, and the tier offsets of the last 256 sampled, newest first (R395) -/
  unsampled  : Nat
  samples    : List Nat
  deriving DecidableEq, Repr

/-- A leaf of the page tables: level 0, 1 or 2, the base of the page, and the entry word of R354. -/
structure Leaf where
  va    : Nat
  level : Nat
  entry : Word64
  deriving DecidableEq, Repr

/-- Where an address leads. -/
inductive Target
  | mem (sp : Space) (off : Nat)
  | host (addr : Nat)
  | remote (rank addr : Nat)
  | counter (off : Nat)
  | flow (off : Nat)
  deriving DecidableEq, Repr

/-- Page tables and keys. -/
structure Translation where
  leaves   : List Leaf
  /-- firmware has set the page-table base (R75, R95) -/
  ready    : Bool
  /-- how many leaves the table pool holds (R356; the model's own, log 9) -/
  pool     : Nat
  nearKey  : BitVec 128
  depKey   : BitVec 128
  deriving DecidableEq, Repr

/-! ## Work: queues, descriptors, suspensions (R227 to R232, R343, R367 to R372) -/

/-- Who issued an operation. -/
inductive Issuer
  /-- a thread, with the queue that launched it and the TAG of that launch (R369) -/
  | thread (t : ThreadId) (queue : Nat) (tag : Word32)
  | queue (q : Nat)
  /-- a DEBUG_READ that the command in a carrel has placed in an engine's queue (R225): desc is its payload, scalars its REQ_SEQ -/
  | debug (carrel : Nat)
  deriving DecidableEq, Repr

/-- What a queue's item does (R112, R229). -/
inductive ItemWork
  | desc (bytes : List Byte)
  | dma (src dst len progress : Nat)
  /-- its descriptor could not be read (R229): the status and detail it ends with -/
  | failed (status detail : Nat)
  deriving DecidableEq, Repr

/-- Where an item stands (R112, R229). -/
inductive ItemState
  | waiting
  | started
  | ended (status detail : Nat) (lo hi : Word32)
  deriving DecidableEq, Repr

/-- One work item of a SUBMIT queue. -/
structure Item where
  uid    : Nat
  /-- the carrel that accepted it -/
  via    : Nat
  ticket : Word32
  tag    : Word32
  opcode : Nat
  work   : ItemWork
  state  : ItemState
  deriving DecidableEq, Repr

/-- A SUBMIT queue (R343): items in submission order, those ended but not yet posted included. -/
structure Queue where
  num    : Nat
  carrel : Nat
  urgent : Bool
  items  : List Item
  deriving DecidableEq, Repr

/-- A descriptor in an engine's queue. scalars holds the values of SCALAR sources read at acceptance (R269). -/
structure Work where
  uid     : Nat
  issuer  : Issuer
  urgent  : Bool
  desc    : List Byte
  scalars : List Word64
  deriving DecidableEq, Repr

/-- A stop at a restart point (R368): fault class 1 or 2, access code of R369, faulting address. -/
structure Suspension where
  cls      : Nat
  acc      : Nat
  va       : Nat
  peer     : Bool
  reported : Bool
  faultId  : Option Word32
  deriving DecidableEq, Repr

/-- An outstanding FAULT_ID (R368, R370). -/
structure FaultRec where
  id      : Word32
  cls     : Nat
  acc     : Nat
  span    : Nat
  waiters : List Requester
  deriving DecidableEq, Repr

/-- Flags and counters of an operation (R155, R156, R190, R226, R283). -/
structure Counts where
  aflags      : BitVec 16
  invalid     : Nat
  sat         : Nat
  flush       : Nat
  alias_      : Nat
  indexRange  : Nat
  negClamp    : Nat
  maskedRow   : Nat
  unitsSkipped : Word64
  borrowUnits : Word64
  imbalance   : Word64
  windowStall : Word64
  groupsSkipped : Word64
  deriving DecidableEq, Repr

/-- How an operation that is no longer running ended: status, detail. -/
structure Ending where
  status : Nat
  detail : Nat
  deriving DecidableEq, Repr

/-! ## Values (R127 to R134, R160) -/

/-- A decoded value (R160): log form is (-1)^neg · j · 2^(p/2^23 + σ); linear form is an exact nonzero magnitude. -/
inductive Num
  | nan
  | inf (neg : Bool)
  | zero (neg : Bool)
  | log (neg : Bool) (p : Int) (j : Nat) (sc : Int)
  | lin (neg : Bool) (mag : Rat)
  deriving DecidableEq, Repr

/-! ## Matrix and conventional engines (R203, R208, R223, R227, R243, R254 to R257) -/

/-- One accumulator word that an operation has written since the last reset: cell, word, contents, saturation bit, and the
format and shape of its last writer (R198, R203, R205). -/
structure AccPlace where
  row   : Nat
  col   : Nat
  word  : Nat
  value : Word32
  sat   : Bool
  fmt   : Nat
  shape : Nat
  deriving DecidableEq, Repr

/-- A matrix operation or drain that has left its queue. -/
structure MatrixOp where
  work      : Work
  /-- the next group (operation) or the next output row (drain) -/
  next      : Nat
  /-- groups added so far per column block: the draw index of its cells (R182); empty until the operation has begun -/
  added     : List Nat
  counts    : Counts
  /-- the antilog bank it is bound to (R187) -/
  bank      : Bool
  /-- the range monitor's ten counts (R249); empty once they have been added to the layer's totals (R250) -/
  bins      : List Nat
  /-- the block bitmap's rows (R244) and the stream table (R183), as loaded before the first group -/
  bitmap    : List (List Byte)
  table     : List Nat
  /-- finish(w, s) of R175 for the last four chunks, newest first -/
  finish    : List (List Nat)
  /-- the local memory that it reads, as it last stood: LOCAL offset, bytes (R241) -/
  view      : List (Nat × List Byte)
  suspended : Option Suspension
  ended     : Option Ending
  deriving DecidableEq, Repr

/-- A matrix engine with its cells. -/
structure MatrixEngine where
  queue     : List Work
  active    : Option MatrixOp
  preempted : Option MatrixOp
  acc       : List AccPlace
  /-- places of the pre-empted footprint as spilled (R223, R255); none: in the cells -/
  spilled   : Option (List AccPlace)
  /-- keys of places held by the URGENT side (R256) -/
  held      : List (Nat × Nat × Nat)
  deriving DecidableEq, Repr

/-- An INPUT operation at the conventional unit (R243). stepped: its STEP_END has been evaluated (R250). -/
structure ConvOp where
  cluster   : ClusterId
  work      : Work
  nextRow   : Nat
  counts    : Counts
  view      : List (Nat × List Byte)
  suspended : Option Suspension
  ended     : Option Ending
  stepped   : Bool
  deriving DecidableEq, Repr

/-- The conventional unit of a C-die: its operations in order of arrival; the first is the one it works on. -/
structure ConvUnit where
  ops : List ConvOp
  deriving DecidableEq, Repr

/-! ## Vector engine (R258 to R289, R312) -/

/-- What one element raises (R156). -/
inductive Ev | none | invalid | overflow | flushed | saturated
  deriving DecidableEq, Repr

/-- The running state of a reduction's segment (R277, R279, R312): the pairs, the values of the segment's current beat, the
integer sum, the winner, and what RSTATS keeps. -/
structure SegState where
  hi     : Word32
  lo     : Word32
  s2hi   : Word32
  s2lo   : Word32
  buf    : List Num
  x0     : Option Num
  n      : Nat
  isum   : Int
  isat   : Bool
  best   : Option (Num × Nat)
  hasNan : Bool
  hasPos : Bool
  hasNeg : Bool
  deriving DecidableEq, Repr

/-- The running state of a summary (R281): the values of its current beat, and that beat's number. -/
structure SumState where
  count : Nat
  best  : Option (Num × Nat)
  hi    : Word32
  lo    : Word32
  buf   : List Num
  beat  : Nat
  deriving DecidableEq, Repr

/-- What an operation answers before its last rounding (R272, R291): a number; a magnitude by its exact log2; an exact magnitude
r · 2^(p / 2^23); the value of a function (its exact value beside it for R297), which is rounded once by R140 to R144; a code that is not
rounded. -/
inductive Internal
  | num (x : Num)
  | logOf (neg : Bool) (lg : Rat)
  | ratio (neg : Bool) (r : Rat) (p : Int)
  | limited (op : Nat) (exact : Rat) (x : Num)
  | code (c : Nat)
  deriving DecidableEq, Repr

/-- An element held for its scale block (R287): its place in D, its index for draws, its result, what it has raised. -/
structure HeldElement where
  j   : Nat
  di  : Nat
  x   : Internal
  evs : List Ev
  deriving DecidableEq, Repr

/-- A vector instruction that has left its queue. -/
structure VectorOp where
  work      : Work
  /-- the table has been loaded and the banks bound (R183, R187) -/
  opened    : Bool
  nextBeat  : Nat
  counts    : Counts
  /-- the banks of the antilog, function and micro-program tables it is bound to (R187) -/
  bank      : Bool
  fbank     : Bool
  pbank     : Bool
  table     : List Nat
  seg       : SegState
  sum       : SumState
  /-- elements of incomplete scale blocks, with their results (R287) -/
  heldBlock : List HeldElement
  /-- the last row counted in MASKED_ROW (R310) -/
  maskedAt  : Option Nat
  /-- the local memory that it reads, as it last stood (R262) -/
  view      : List (Nat × List Byte)
  /-- what a GATHER or SCATTER whose destination coincides with a source reads of it: its bytes before the first beat (R262) -/
  saved     : List (Nat × List Byte)
  suspended : Option Suspension
  ended     : Option Ending
  deriving DecidableEq, Repr

/-- A vector engine. -/
structure VectorEngine where
  queue  : List Work
  active : Option VectorOp
  deriving DecidableEq, Repr

/-! ## Threads (R341 to R347) -/

/-- Thread states (R341). -/
inductive ThreadState | idle | running | waiting | suspended
  deriving DecidableEq, Repr

/-- What a WAITING thread waits for (R342). -/
inductive ThreadWait
  | none
  | load (rd width : Nat) (va : Word64)
  /-- a load or AMO whose data comes from the host or a peer: the request's number -/
  | remote (rd width : Nat) (request : Nat)
  /-- an access that may not go out yet (R80, R81, R477): the instruction is tried again -/
  | outlet
  /-- an issue that a full queue holds back: engine 0 matrix, 1 vector, 2 routing; the register of the descriptor's address -/
  | issue (engine : Nat) (ra : Nat)
  | fence (kind : Nat) (before : List Nat)
  /-- WAIT on a word: its address, the value, the cycle count that ends the wait at the latest; request: a read of host or remote memory
  under way for it -/
  | word (va : Word64) (value : Word64) (cycles : Option Nat) (request : Option Nat)
  | cycles (n : Nat)
  | summary (reg : Nat)
  deriving DecidableEq, Repr

/-- One hardware thread. -/
structure Thread where
  pc        : Word64
  regs      : Vector Word64 32
  urgent    : Bool
  state     : ThreadState
  wait      : ThreadWait
  suspended : Option Suspension
  /-- issues that have not ended, by uid -/
  issued    : List Nat
  /-- summary registers not yet written: (register, uid of the instruction) (R282) -/
  summaries : List (Nat × Nat)
  /-- writes to host and remote memory not yet sent or acknowledged (FENCE.S) -/
  writes    : List Nat
  /-- the queue that launched it, its item, and its status record -/
  queue     : Nat
  uid       : Nat
  statusVa  : Nat
  /-- ended, its status record not yet written (R230): status, detail, exit value -/
  ending    : Option (Nat × Nat × Word64)
  deriving DecidableEq, Repr

/-- One cluster: control core, engines, counters (R22, R555). -/
structure Cluster where
  threads : List Thread
  /-- the thread that last issued an instruction (R342) -/
  lastIssued : Nat
  matrix  : MatrixEngine
  vector  : VectorEngine
  matrixOps   : Word64
  vectorOps   : Word64
  preemptions : Word64
  spills      : Word64
  suspensions : Word64
  walks       : Word64
  /-- distinct local-memory words found uncorrectable since start, injected ones apart (R551) -/
  uePlaces    : List Nat
  deriving DecidableEq, Repr

/-! ## Routing (R319 to R339) -/

/-- A valid flow-table entry: its place, its key, its choice words (R332), and an uncorrectable error in it (R337): 0 none,
1 in the choice words or the word at 0x18, 2 in the key or LINK words. -/
structure FlowEntry where
  index   : Nat
  layer   : Nat
  batch   : Nat
  token   : Nat
  stepTag : Nat
  choices : List Word32
  nan     : Bool
  k       : Nat
  corrupt : Nat
  deriving DecidableEq, Repr

/-- What a ROUTE has decided for one token: its score-ranked experts, then its placed choices and gates. -/
structure TokenPlan where
  nan     : Bool
  order   : List Nat
  gates   : List Word32
  choices : List Word32
  short   : Bool
  deriving DecidableEq, Repr

/-- A routing descriptor that has left its queue. -/
structure RoutingOp where
  work      : Work
  /-- 0: reading scores; 1: writing outputs; 2: it changes nothing and holds no reservation; 3: complete -/
  phase     : Nat
  /-- the antilog bank it is bound to (R187) -/
  bank      : Bool
  next      : Nat
  plan      : List TokenPlan
  routed    : Nat
  overflowed : Nat
  dropped   : Nat
  rerouted  : Nat
  nanTokens : Nat
  maxLoad   : Nat
  missing   : Nat
  spilled   : Nat
  probes    : Nat
  /-- R337: the Ledger record of the last uncorrectable entry met -/
  errorRec  : Option Nat
  suspended : Option Suspension
  ended     : Option Ending
  deriving DecidableEq, Repr

/-- The routing engine of an X-die. -/
structure RoutingEngine where
  queue  : List Work
  hold   : List Work
  active : Option RoutingOp
  deriving DecidableEq, Repr

/-- The queue and overflow counts of one (layer, step tag), by expert, and the batches of the step whose ROUTE has ended (R327,
R329). -/
structure RouteCounts where
  layer   : Nat
  stepTag : Nat
  counts  : List (Nat × Nat × Nat)
  batches : List Nat
  deriving DecidableEq, Repr

/-- Device-wide routing state (R323, R324, R334). -/
structure Routing where
  /-- FLOW_KEY as drawn at this start, and in force -/
  startKey     : Word64
  flowKey      : Word64
  spillVa      : Nat
  spillEntries : Nat
  /-- spill entries in use, by their index -/
  spillUsed    : List Nat
  /-- spill entries with an uncorrectable error (R337), and whether it lies in their key or LINK words -/
  spillBad     : List (Nat × Bool)
  table        : List FlowEntry
  /-- layer records as loaded (64 bytes), by layer -/
  layers       : List (Nat × List Byte)
  counts       : List RouteCounts
  /-- the single count FREE of R334, reservations taken off -/
  free         : Nat
  deriving DecidableEq, Repr

/-! ## DMA (R374 to R377) and reads of host memory (R80 to R83) -/

/-- A DMA item at an engine. -/
structure DmaJob where
  uid       : Nat
  queue     : Nat
  src       : Nat
  dst       : Nat
  len       : Nat
  progress  : Nat
  next      : Nat
  bytesDone : Nat
  /-- source and destination of the granule in progress, as it was translated before its first byte moved (R375) -/
  route     : Option (List (Target × Nat) × List (Target × Nat))
  /-- bytes of the granule in progress already fetched -/
  gathered  : List Byte
  /-- bytes of the granule in progress already written -/
  written   : Nat
  /-- an outstanding host read or remote request -/
  waiting   : Option Nat
  /-- held at a host granule until mastering is allowed (R80) -/
  held      : Bool
  suspended : Option Suspension
  /-- its SUSPENDED record waits until mastering is allowed (R80, R376) -/
  owed      : Bool
  ended     : Option Ending
  deriving DecidableEq, Repr

/-- An outstanding read of host memory. -/
structure HostRead where
  id    : Nat
  /-- the virtual address it was translated from (R357) -/
  va    : Nat
  addr  : Nat
  len   : Nat
  owner : Requester
  deriving DecidableEq, Repr

/-! ## Double-banked tables (R187 to R189, R301) -/

/-- An accepted RELOAD_TABLE: where its completion goes (none: its session has ended), its entries, whether the inactive banks
have been written, and the users that have not yet swapped. -/
structure Reload where
  carrel  : Option Nat
  ticket  : Word32
  tag     : Word32
  data    : List Nat
  written : Bool
  left    : List TableUser
  deriving DecidableEq, Repr

/-- A double-banked table: a bank with no list holds the start-up contents; active is the bank marked active. -/
structure Banked where
  bank0  : Option (List Nat)
  bank1  : Option (List Nat)
  active : Bool
  reload : Option Reload
  deriving DecidableEq, Repr

/-- The three double-banked tables. -/
structure Tables where
  antilog  : Banked
  function : Banked
  programs : Banked
  deriving DecidableEq, Repr

/-! ## Range monitor (R249 to R253) -/

/-- A layer policy (16 bytes, R251) with its totals and histories. -/
structure LayerPolicy where
  layer  : Nat
  bytes  : List Byte
  totals : List Nat
  histA  : List Nat
  histB  : List Nat
  curA   : Nat
  curB   : Nat
  evals  : Nat
  deriving DecidableEq, Repr

/-! ## Collectives (R397 to R427) -/

/-- A joined group (R397 to R404, R424, R476). -/
structure Group where
  num       : Nat
  carrel    : Nat
  map       : List Byte
  /-- (rank, node) by member index -/
  members   : List (Nat × Nat)
  me        : Nat
  timeoutMs : Nat
  /-- layer records of 64 bytes, once SET_BUCKETS has set them -/
  layout    : Option (List (List Byte))
  /-- the layer that the next gradient descriptor to arrive must name (R404) -/
  nextIndex : Nat
  /-- gradient descriptors below this uid have been put in order, and those of them that are out of order (R404) -/
  seen      : Nat
  late      : List Nat
  failed    : Bool
  /-- (owner index, bytes sent and not granted back) -/
  windows   : List (Nat × Nat)
  deriving DecidableEq, Repr

/-- A compressed bucket on its way to its owner (a member index): the bytes not yet sent, from an offset (R408, R476). -/
structure Outgoing where
  bucket : Nat
  owner  : Nat
  offset : Nat
  bytes  : List Byte
  deriving DecidableEq, Repr

/-- A REDUCE that has reached the head of its Consort queue (R403 to R408, R416, R426). -/
structure ReduceOp where
  work      : Work
  group     : Nat
  stats     : Bool
  layerPos  : Nat
  step      : Word32
  /-- it has passed its trigger -/
  begun     : Bool
  /-- the antilog bank it is bound to (R187) -/
  bank      : Bool
  /-- the next block to compress -/
  next      : Nat
  /-- NaN entries of the bucket in progress: block in the bucket, bitmap (R407) -/
  nans      : List (Nat × List Byte)
  /-- buckets (STATS: runs of records, bucket giving the first) not yet wholly sent -/
  outgoing  : List Outgoing
  /-- global buckets (STATS: records) whose results have come -/
  arrived   : List Nat
  /-- buckets of whose results some could not be written -/
  lost      : List Nat
  /-- BUCKETS of R427: those of them that were written -/
  wrote     : Nat
  flags     : Nat
  nanSent   : Nat
  nanResult : Nat
  sat       : Nat
  flush     : Nat
  mismatch  : Nat
  bytesSent : Word64
  /-- R422: how it will end, once its results have arrived -/
  aborted   : Option Ending
  suspended : Option Suspension
  ended     : Option Ending
  deriving DecidableEq, Repr

/-- Bytes of a bucket in the owner's inbound hold (R475): GROUP_CRC, the sender's rank, and how many bursts of it ports have
admitted, in order (R413). -/
structure InBucket where
  crc      : Word32
  src      : Nat
  bucket   : Nat
  step     : Word32
  bytes    : List Byte
  admitted : Nat
  deriving DecidableEq, Repr

/-- A contribution to a burst (R409, R410), as its port holds it. -/
structure Contribution where
  source  : Nat
  step    : Word32
  alpha   : Word32
  signs   : BitVec 16
  nans    : BitVec 16
  aborted : Bool
  badLayout : Bool
  deriving DecidableEq, Repr

/-- A burst at an accumulate port (R412): the port, the burst, and its admitted contributions. -/
structure PortBurst where
  die       : Nat
  unit      : Nat
  group     : Nat
  /-- how often the bucket was completed before this sum of it: its place in the step sequence -/
  round     : Nat
  bucket    : Nat
  burst     : Nat
  got       : List Contribution
  suspended : Option Suspension
  deriving DecidableEq, Repr

/-- What the owner knows of a bucket it sums: how often it has completed it; of the sum in progress, whether an ABORT has ended it
(R422) and the bursts written; the sums that held a NaN and are not yet recorded: round, element in the layer, source, step (R420). -/
structure OwnBucket where
  group    : Nat
  bucket   : Nat
  rounds   : Nat
  aborted  : Bool
  written  : List Nat
  nans     : List (Nat × Nat × Nat × Word32)
  deriving DecidableEq, Repr

/-- A result or statistics frame in a hold (R475): type, GROUP_CRC, sender's rank, the upper word of ARG0, TAG, STEP, payload; the port and VC
it came by (none: from this device), and whether it still stands in that port's buffer, its credits withheld. -/
structure HeldFrame where
  type    : Nat
  crc     : Word32
  src     : Nat
  upper   : Word32
  tag     : Word32
  step    : Word32
  payload : List Byte
  via     : Option (Nat × Nat)
  owes    : Bool
  deriving DecidableEq, Repr

/-- The Consort engine of an X-die (R402): the descriptors behind the head, the one at work, and those that wait for results. -/
structure ConsortEngine where
  queue   : List Work
  active  : Option ReduceOp
  running : List ReduceOp
  deriving DecidableEq, Repr

/-- What member 0 gathers for a STATS REDUCE (R426): by member, how many records have come, of how many, and with which STEP. -/
structure StatsGather where
  group   : Nat
  uid     : Nat
  counts  : List (Nat × Nat × Nat)
  steps   : List (Nat × Word32)
  bad     : Bool
  deriving DecidableEq, Repr

/-- Device-wide collective state. -/
structure Collective where
  groups     : List Group
  inbound    : List InBucket
  /-- (group, source) whose first burst was refused (R413) -/
  refused    : List (Nat × Nat)
  portBursts : List PortBurst
  own        : List OwnBucket
  /-- results and statistics not yet taken in -/
  held       : List HeldFrame
  gathers    : List StatsGather
  deriving DecidableEq, Repr

/-! ## Parameter update (R430 to R455) -/

/-- An update unit (die kind, die, unit of R370) that waits under a fault. -/
structure StoppedUnit where
  unit  : DieKind × Nat × Nat
  fault : Suspension
  deriving DecidableEq, Repr

/-- A schedule table entry (128 bytes); LAST_STEP is the field of the entry at 0x08. -/
structure ScheduleEntry where
  layer    : Nat
  bytes    : List Byte
  lastStep : Word32
  deriving DecidableEq, Repr

/-- An update pending or running (R447 to R454). -/
structure UpdateOp where
  layer     : Nat
  group     : Nat
  /-- JOIN_GROUP's carrel of the group (R450) -/
  carrel    : Nat
  /-- the layer record in force when it started (R434) -/
  layout    : List Byte
  step      : Word32
  /-- how the REDUCE ended, and its FLAGS -/
  reduce    : Ending
  flags     : Nat
  started   : Bool
  /-- the antilog bank it is bound to (R187) -/
  bank      : Bool
  /-- 1 or 2; the lowest granule not done in it, and those done beyond it -/
  pass      : Nat
  next      : Nat
  ahead     : List Nat
  /-- partials of pass 1: granule, sum, hi, lo (R439, R449) -/
  partials  : List (Nat × Nat × Word32 × Word32)
  trust     : Word32
  /-- LAMB: q; FACTORED: S -/
  scale     : Word32
  counts    : Counts
  updated   : Nat
  frozen    : Nat
  untouched : Nat
  nonfinite : Nat
  flips     : Nat
  granules  : Nat
  /-- units that wait under a fault -/
  stopped   : List StoppedUnit
  ended     : Option Ending
  /-- its status record has been written, its done word incremented (R450) -/
  recorded  : Bool
  signalled : Bool
  deriving DecidableEq, Repr

/-- Schedule table, freeze masks and updates. -/
structure Update where
  schedule : List ScheduleEntry
  masks    : List (Nat × Nat)
  ops      : List UpdateOp
  deriving DecidableEq, Repr

/-! ## Windway (R457 to R484) -/

/-- The counters of a port (R482), STATE apart. -/
structure PortCounters where
  fecCorrected   : Word64
  fecBad         : Word64
  crcErrors      : Word64
  naks           : Word64
  resent         : Word64
  retrains       : Word64
  peerResetDrops : Word64
  ttlDrops       : Word64
  framesTx       : Word64
  framesRx       : Word64
  payloadTx      : Word64
  payloadRx      : Word64
  injected       : Word64
  creditStallNs  : Word64
  deriving DecidableEq, Repr

/-- STATE of a port (R482). -/
inductive PortState | disabled | training | up | down | miswired
  deriving DecidableEq, Repr

/-- One Windway port. -/
structure Port where
  state     : PortState
  /-- the lanes in use (R460) -/
  inUse     : BitVec 4
  /-- the peer's start number, as last seen (R474) -/
  peerStart : Option Word32
  /-- LSEQ of the last numbered frame sent, of the last accepted, and the peer's last LACK -/
  txSeq     : Nat
  rxSeq     : Nat
  lacked    : Nat
  /-- the retry buffer (R472) -/
  retry     : List Frame
  /-- how often each frame of the retry buffer has been resent (R473) -/
  resends   : List Nat
  /-- frames routed to the port that wait for it to be UP, for credit or for room (R465, R475) -/
  waiting   : List Frame
  /-- credits held for each VC, in 64-byte units; credits owed to the peer -/
  credits   : List Nat
  owed      : List Nat
  nakSent   : Bool
  /-- MISWIRED already recorded since the last training success -/
  miswiredLogged : Bool
  /-- the width of the last training that succeeded, 0 before any (R460) -/
  lastLanes : Nat
  /-- a frame held back by REORDER (R481) -/
  reordered : Option Frame
  counters  : PortCounters
  deriving DecidableEq, Repr

/-- The fabric block in force (R461, R462). -/
structure Fabric where
  rank     : Nat
  fabricId : Word32
  word8    : Word32
  phyMode  : BitVec 16
  portEn   : BitVec 16
  d0minus  : BitVec 16
  d0plus   : BitVec 16
  d1minus  : BitVec 16
  d1plus   : BitVec 16
  d2minus  : BitVec 16
  d2plus   : BitVec 16
  deriving DecidableEq, Repr

/-- An outstanding remote request (R477, R479): kind 1 READ, 2 WRITE, 3 AMO. -/
structure RemoteReq where
  tag   : Nat
  /-- the virtual address it was translated from (R357) -/
  va    : Nat
  rank  : Nat
  addr  : Nat
  kind  : Nat
  len   : Nat
  owner : Requester
  deriving DecidableEq, Repr

/-- A peer's request held at its target while it is suspended (R475, R478): the port it came by (none: from this device), and whether it still
stands in that port's buffer, its credits withheld. -/
structure PeerReq where
  index     : Nat
  frame     : Frame
  port      : Option Nat
  owes      : Bool
  suspended : Suspension
  deriving DecidableEq, Repr

/-- Windway state of the device. -/
structure Windway where
  fabric      : Fabric
  ports       : List Port
  requests    : List RemoteReq
  peerHold    : List PeerReq
  nextTag     : Nat
  unreachable : Word64
  timeouts    : Word64
  late        : Word64
  deriving DecidableEq, Repr

/-! ## Power, thermal control, clocks (R485 to R510) -/

/-- A die's governor state: operating level (C-dies), skip count N, hottest sensor, its block of counters (R510, R555). -/
structure DiePower where
  kind       : DieKind
  die        : Nat
  level      : Nat
  n          : Nat
  tempC      : Int
  /-- consecutive good evaluations (R488 rule 4) -/
  goodEvals  : Nat
  /-- below level 0 under rule 1; under rule 2 or 3 (R491) -/
  fwPower    : Bool
  fwThermal  : Bool
  levelNs    : List Word64
  bellowsNs  : Word64
  skipped    : Word64
  gatedNs    : Word64
  wakes      : Word64
  peakC      : Int
  sramCe     : Word64
  sramUe     : Word64
  parity     : Word64
  tlbRefetch : Word64
  injected   : Word64
  deriving DecidableEq, Repr

/-- The offset and the rate that firmware keeps for a counter: DIE_KIND, DIE and UNIT as R507 names it (R508). -/
structure ClockFit where
  kind   : Nat
  die    : Nat
  unit   : Nat
  offset : Word64
  rate   : Word64
  deriving DecidableEq, Repr

/-- A local cycle counter (R41, R507): a control core's (kind 0, C-die, cluster), a C-die's C_SPINE counter (0, C-die, 0xFFFF), an Archivist
core's (1, X-die, 0xFFFF, and 1 to 3 for the further ones of X-die 0), a D-die's memory-clock counter (2, D-die, 0xFFFF). -/
structure Ticks where
  kind  : Nat
  die   : Nat
  unit  : Nat
  count : Word64
  deriving DecidableEq, Repr

/-- The Bellows governor and the firmware power loop. -/
structure Power where
  dies      : List DiePower
  /-- what firmware keeps to convert each counter to time (R508) -/
  clocks    : List ClockFit
  /-- the local cycle counters (R41) -/
  ticks     : List Ticks
  avg50us   : Nat
  avg1ms    : Nat
  avg10ms   : Nat
  vinMv     : Nat
  samples   : Nat
  /-- the emergency causes declared (R495) -/
  declared  : List Cause
  tripped   : Bool
  tripSite  : Word16
  capW      : Nat
  targetC   : Nat
  gated     : List Domain
  energyMj  : Word64
  emPower   : Word64
  emDie     : Word64
  emStack   : Word64
  emVin     : Word64
  deriving DecidableEq, Repr

/-! ## Injection, Spine links, device counters (R480, R545, R553 to R555) -/

/-- A fault-injection setting: TARGET_KIND, UNIT, SEED, RATE, MODE, and the events counted since it was set. -/
structure Injection where
  kind   : Nat
  unit   : Nat
  seed   : Word64
  rate   : Word32
  mode   : Nat
  events : Nat
  deriving DecidableEq, Repr

/-- A Spine link's counters and its lanes lost beyond the spares. -/
structure SpineLink where
  flitsAb  : Word64
  flitsBa  : Word64
  replays  : Word64
  retrains : Word64
  injected : Word64
  /-- flits sent since the injection setting in force (R553) -/
  sent     : Nat
  /-- lanes lost without a spare -/
  lost     : Nat
  deriving DecidableEq, Repr

/-- The HOST counter group (R555). -/
structure HostCounters where
  badAccess     : Word64
  emptyRing     : Word64
  hbIgnored     : Word64
  historyBad    : Word64
  overwritten   : Word64
  faultsRetried : Word64
  orphanEvents  : Word64
  deriving DecidableEq, Repr

/-- A TLP that the device sends. relaxed: its Relaxed Ordering attribute (R82). -/
inductive Tlp
  | msix (vector : Nat) (addr : Word64) (data : Word32)
  | hostWrite (addr : Nat) (bytes : List Byte) (relaxed : Bool)
  | hostRead (id addr len : Nat)
  | completion (bytes : List Byte) (poisoned : Bool)
  | unsupportedRequest
  | completerAbort
  deriving DecidableEq, Repr

/-- What the device sends, in order (the model's own record of its outputs, log 10). -/
inductive Output
  /-- a TLP, and whether it carries an ECRC (R87) -/
  | tlp (t : Tlp) (ecrc : Bool)
  | frame (port : Nat) (f : Frame)
  | smbus (bytes : List Byte)
  | smbusNack
  deriving DecidableEq, Repr

/-- The whole state. -/
structure State where
  fuses     : Fuses
  pins      : Pins
  link      : Link
  cfg       : ConfigSpace
  bar0      : Bar0
  carrels   : List Carrel
  session   : Session
  fw        : Firmware
  catalogue : Catalogue
  phys      : Physical
  ledger    : Ledger
  mem       : Memory
  memStacks : List Stack
  tr        : Translation
  queues    : List Queue
  clusters  : List Cluster
  conv      : List ConvUnit
  routers   : List RoutingEngine
  routing   : Routing
  dma       : List (Option DmaJob)
  hostReads : List HostRead
  faults    : List FaultRec
  /-- requesters suspended without a FAULT_ID because none is free (R368) -/
  faultWait : List Requester
  faultSeq  : Nat
  tables    : Tables
  policies  : List LayerPolicy
  consorts  : List ConsortEngine
  coll      : Collective
  update    : Update
  ww        : Windway
  power     : Power
  injections : List Injection
  spine     : List SpineLink
  host      : HostCounters
  /-- the next uid of an issued operation (the model's own) -/
  nextUid   : Nat
  /-- the next free value (the model's own, log 4) -/
  freeCtr   : Nat
  /-- what the device has sent, oldest first (the model's own, log 10) -/
  out       : List Output
  /-- the commands that are waiting, first in, first out -/
  pending   : List Instr
  deriving DecidableEq, Repr

/-! ## How a command can stop -/

/-- Where the manual says 'the result is undefined': the device promises nothing, not even that it continues to run. Each
is SAFE: the model stops where the hardware may do anything. -/
inductive Fault
  /-- raised by refclkLoss (R518) -/
  | refclkLost
  /-- raised by registerWrite when the host writes a request area while its request is unanswered (R104) -/
  | requestOverwritten
  /-- raised by takeRing when the driver and the firmware implement different Uadin versions (R2) -/
  | uadinMismatch
  /-- raised by matmul when an ADD adds into a word with no, or another, writer (R205) -/
  | addIntoForeignWord
  /-- raised by matmul, inputOperation or a vector instruction that goes on after the local memory it reads has been written (R241, R262) -/
  | operandWritten
  /-- raised by a vector instruction whose destination overlaps a source, mask or scale array otherwise than exactly (R262) -/
  | vectorOverlap
  /-- raised by dmaStart when source and destination overlap (R374) -/
  | dmaOverlap
  /-- raised by updateStart when an array of the layer overlaps an array of another layer with an entry, or the layer's own GRAD, ERR,
  CBUF or SUM (R432) -/
  | updateOverlap
  deriving DecidableEq, Repr

/-- Why a command has no meaning. -/
inductive Refusal
  /-- raised by exec for a row not modelled yet; SAFE -/
  | notModelled (mnemonic : String)
  deriving DecidableEq, Repr

/-! ## Reset -/

/-- DESIGN CHOICE (log 1): the part of the manual's worked cases, PRB-C4X2N12D8, serial 0x0B50_031A_0E00_0000_0001_2C47. -/
def Fuses.sample : Fuses where
  part := ⟨4, 2, 12, 8, rfl⟩
  serial := 0x0B50031A0E00000000012C47#96
  romVersion := 0x00010002#32
  svnMin := 0#32
  revokedKeys := 0#4
  revision := 0#8
  trayModel := 0#16
  badClusters := []
  badChannels := []
  badLanes := []
  uds := 0#384
  dikCert := []
  caCert := []

def ConfigSpace.reset : ConfigSpace :=
  ⟨false, false, false, false, false, false, true, false, false, false, 0, 2, 0, [], [], []⟩

/-- R84: the default vector of source k is k. -/
def defaultIntMap : List IntEntry := (List.range 69).map fun k => ⟨BitVec.ofNat 8 k, false⟩

/-- PRESUMED (log 3): an MSI-X vector is masked after reset, as the PCIe Base Specification says. -/
def resetMsix : List MsixEntry := List.replicate 256 ⟨0#64, 0#32, true⟩

/-- R71 and R84: the control registers after cold reset, PERST# or DEVICE_RESET, RESET_CAUSE apart. -/
def Bar0.reset (cause : BitVec 3) : Bar0 where
  pend := 0#64
  bar2Lo := 0#32
  bar2HiStaged := 0#25
  bar2HiActive := 0#25
  lock := 0#5
  resetCause := cause
  bar2Fault := false
  bar2FaultCount := 0#32
  bar2FaultAddr := 0#57
  bar2FaultWrite := false
  intMap := defaultIntMap
  msix := resetMsix
  pba := 0#256

def Response.empty : Response := ⟨0, 0#32, 0, 0, 0#32, []⟩

/-- R101, R102: a carrel after reset; carrel 0 is always open. -/
def Carrel.reset (isOpen : Bool) : Carrel :=
  ⟨isOpen, 0#32, 0#32, 0#32, 0#32, 0#32, [], Response.empty, [], [], 0#64, [], 1#32⟩

def carrelsReset : List Carrel := Carrel.reset true :: List.replicate 63 (Carrel.reset false)

/-- R119: each start begins with an orphan timeout of 2,000 ms. -/
def Session.reset : Session := ⟨.detached, none, 0#64, 0, 0, 0#32, 0#32⟩

def Firmware.reset : Firmware where
  start := .off
  detail := 0#16
  running := none
  staged := none
  previous := none
  history := []
  activation := .none
  pendingAct := none
  activations := 0#32
  refused := 0#32
  reportSeq := 0#32
  ak := 0#384
  debugOn := false
  debugEver := false
  injectEver := false
  nearKeySet := false
  depKeySet := false
  ptBaseSet := false
  fabricTries := 0
  startId := 0#32
  timeRuns := false

def Store.empty : Store := ⟨[], [], [], []⟩

def Counts.zero : Counts := ⟨0#16, 0, 0, 0, 0, 0, 0, 0, 0#64, 0#64, 0#64, 0#64, 0#64⟩

def Thread.reset : Thread :=
  ⟨0#64, Vector.replicate 32 0#64, false, .idle, .none, none, [], [], [], 0, 0, 0, none⟩

def MatrixEngine.reset : MatrixEngine := ⟨[], none, none, [], none, []⟩

def Cluster.reset : Cluster where
  threads := List.replicate 16 Thread.reset
  lastIssued := 15
  matrix := MatrixEngine.reset
  vector := ⟨[], none⟩
  matrixOps := 0#64
  vectorOps := 0#64
  preemptions := 0#64
  spills := 0#64
  suspensions := 0#64
  walks := 0#64
  uePlaces := []

def StackCounters.zero : StackCounters := ⟨0, 0, 0, 0, 0, 0, 0, 0, 0⟩

def Stack.reset (tier : Space) (k : Nat) : Stack :=
  ⟨tier, k, StackCounters.zero, 0, [], [], [], [], 0, 0, 0, false, [], 0, 0, []⟩

def stacksReset (p : Part) : List Stack :=
  (List.range p.n).map (Stack.reset .near) ++ (List.range p.d).map (Stack.reset .dep)

def Banked.reset : Banked := ⟨none, none, false, none⟩

/-- R332, R334: every entry of the flow table FREE, no spill list. -/
def Routing.reset : Routing := ⟨0#64, 0#64, 0, 0, [], [], [], [], [], 262144⟩

def PortCounters.zero : PortCounters :=
  ⟨0, 0, 0, 0, 0, 0, 0, 0, 0, 0, 0, 0, 0, 0⟩

def Port.reset : Port :=
  ⟨.disabled, 0#4, none, 0, 0, 0, [], [], [], [0, 0, 0, 0], [0, 0, 0, 0], false, false, 0, none, PortCounters.zero⟩

/-- R461: the fallback, rank 0, all dimensions 1, all ports disabled. -/
def Fabric.fallback : Fabric := ⟨0, 0#32, 0#32, 0#16, 0#16, 0#16, 0#16, 0#16, 0#16, 0#16, 0#16⟩

def Windway.reset (p : Part) : Windway :=
  ⟨Fabric.fallback, List.replicate (4 * p.x) Port.reset, [], [], 0, 0#64, 0#64, 0#64⟩

def DiePower.reset (kind : DieKind) (die : Nat) : DiePower where
  kind := kind
  die := die
  level := 0
  n := 0
  tempC := 0
  goodEvals := 0
  fwPower := false
  fwThermal := false
  levelNs := List.replicate 6 0#64
  bellowsNs := 0#64
  skipped := 0#64
  gatedNs := 0#64
  wakes := 0#64
  peakC := 0
  sramCe := 0#64
  sramUe := 0#64
  parity := 0#64
  tlbRefetch := 0#64
  injected := 0#64

/-- R33: the maximum package power, in watts. -/
def Part.pmax (p : Part) : Nat := 240 * p.c + 60 * p.x + 9 * p.n + 11 * p.d

/-- R41: every local counter at 0. -/
def ticksReset (p : Part) : List Ticks :=
  (List.range p.c).flatMap (fun i => (List.range 16 ++ [0xFFFF]).map fun u => ⟨0, i, u, 0#64⟩)
    ++ (List.range p.x).map (fun k => ⟨1, k, 0xFFFF, 0#64⟩) ++ [⟨1, 0, 1, 0#64⟩, ⟨1, 0, 2, 0#64⟩, ⟨1, 0, 3, 0#64⟩]
    ++ (List.range (p.d / 2)).map fun k => ⟨2, k, 0xFFFF, 0#64⟩

def Power.reset (p : Part) : Power where
  dies := (List.range p.c).map (DiePower.reset .c) ++ (List.range p.x).map (DiePower.reset .x)
    ++ (List.range (p.d / 2)).map (DiePower.reset .d)
  clocks := []
  ticks := ticksReset p
  avg50us := 0
  avg1ms := 0
  avg10ms := 0
  vinMv := 52000
  samples := 0
  declared := []
  tripped := false
  tripSite := 0xFFFF#16
  capW := p.pmax
  targetC := 90
  gated := []
  energyMj := 0#64
  emPower := 0#64
  emDie := 0#64
  emStack := 0#64
  emVin := 0#64

/-- R61: how many SPINE_LINK instances a part has: port pairs, column links, X-die links, bridges, D-die links. -/
def Part.links (p : Part) : Nat := (p.c - 2) + p.c / 2 + p.c + (p.x - 1) + p.d / 2

/-- The machine of given fuses with power applied and PKG_PGOOD high, held in its first reset: everything but the fuses at
its value after a cold reset (R12, R71, R88, R101). RESET_END is what ends the reset. -/
def State.cold (f : Fuses) : State where
  fuses := f
  pins := ⟨true, true, true, true, false, false, false⟩
  link := ⟨0, 0, false⟩
  cfg := ConfigSpace.reset
  bar0 := Bar0.reset 0#3
  carrels := carrelsReset
  session := Session.reset
  fw := Firmware.reset
  catalogue := ⟨0, 0#32, []⟩
  phys := ⟨[], [], [], [], [], []⟩
  ledger := ⟨[], 0, 0, []⟩
  mem := ⟨Store.empty, Store.empty, Store.empty⟩
  memStacks := stacksReset f.part
  tr := ⟨[], false, 2 ^ 26, 0#128, 0#128⟩
  queues := []
  clusters := List.replicate (16 * f.part.c) Cluster.reset
  conv := List.replicate f.part.c ⟨[]⟩
  routers := List.replicate f.part.x ⟨[], [], none⟩
  routing := Routing.reset
  dma := List.replicate (4 * f.part.x) none
  hostReads := []
  faults := []
  faultWait := []
  faultSeq := 0
  tables := ⟨Banked.reset, Banked.reset, Banked.reset⟩
  policies := []
  consorts := List.replicate f.part.x ⟨[], none, []⟩
  coll := ⟨[], [], [], [], [], [], []⟩
  update := ⟨[], [], []⟩
  ww := Windway.reset f.part
  power := Power.reset f.part
  injections := []
  spine := List.replicate f.part.links ⟨0#64, 0#64, 0#64, 0#64, 0#64, 0, 0⟩
  host := ⟨0#64, 0#64, 0#64, 0#64, 0#64, 0#64, 0#64⟩
  nextUid := 0
  freeCtr := 0
  out := []
  pending := []

/-- The machine right after reset: the worked cases' part (log 1), in its first reset after power-on, nothing waiting. -/
def State.reset : State := State.cold Fuses.sample

end Sys2Proof.Machine
end

