-- ==== Sys2Proof/Machine/Ops.lean ====
section
/-! DEFINITION. The operations every command is written over: the parts of the state by name, messages to the host, the
Ledger, memory with its ECC, translation, completions and the taking of a ring. -/

namespace Sys2Proof

/-- The kind code of R61. -/
def DieKind.code : DieKind → Nat
  | .c => 0
  | .x => 1
  | .d => 2

/-- R57: 16 × C-die + cluster. -/
def ClusterId.index (e : ClusterId) : Nat := 16 * e.cdie + e.cluster

/-- 0 near, 1 depository. -/
def Space.bit (sp : Space) : Nat :=
  match sp with
  | .near => 0
  | .dep => 1
  | .loc => 0

/-- The protected unit: a 64-byte burst of a tier, a 64-bit word of local memory (R545). -/
def Space.unit (sp : Space) : Nat :=
  match sp with
  | .near => 64
  | .dep => 64
  | .loc => 8

/-- SITE_KIND of R547. -/
def Space.siteKind (sp : Space) : Nat :=
  match sp with
  | .near => 3
  | .dep => 4
  | .loc => 8

end Sys2Proof

namespace Sys2Proof.Machine

/-! ## Status codes (R111, R347) -/

def stOk : Nat := 0x0000
def stAccepted : Nat := 0x0001
def stBadOpcode : Nat := 0x0002
def stBadLength : Nat := 0x0003
def stBadField : Nat := 0x0004
def stBadSequence : Nat := 0x0005
def stBadState : Nat := 0x0006
def stNotAttached : Nat := 0x0007
def stNotOpen : Nat := 0x0008
def stOrphaned : Nat := 0x0009
def stLocked : Nat := 0x000A
def stBusy : Nat := 0x000B
def stNoResource : Nat := 0x000C
def stNoMaster : Nat := 0x000D
def stHostDmaError : Nat := 0x000E
def stBadImage : Nat := 0x000F
def stBadSignature : Nat := 0x0010
def stRollback : Nat := 0x0011
def stDeferredTimeout : Nat := 0x0012
def stActivationFailed : Nat := 0x0013
def stCancelled : Nat := 0x0014
def stDiscarded : Nat := 0x0015
def stTranslationFault : Nat := 0x0016
def stDeviceError : Nat := 0x0017

/-! ## Small helpers -/

/-- Every element that p picks, changed by f. -/
def updIf {α : Type} (p : α → Bool) (f : α → α) (l : List α) : List α := l.map fun x => if p x then f x else x

/-- A number put into a rising list without repeats. -/
def insertNat (n : Nat) : List Nat → List Nat
  | [] => [n]
  | m :: ms => if n < m then n :: m :: ms else if n == m then m :: ms else m :: insertNat n ms

/-- A counter of n bits advanced, wrapping. -/
def bump {n : Nat} (c : BitVec n) (by_ : Nat) : BitVec n := c + BitVec.ofNat n by_

/-- The next free value (log 4), and the state that has used it. -/
def State.fresh (s : State) : Word64 × State :=
  (Config.freeValue s.freeCtr, { s with freeCtr := s.freeCtr + 1 })

/-- A number for a new operation. -/
def State.newUid (s : State) : Nat × State := (s.nextUid, { s with nextUid := s.nextUid + 1 })

/-! ## Units by number -/

def Part.nearBytes (p : Part) : Nat := p.n * 2 ^ 36
def Part.depBytes (p : Part) : Nat := p.d * 2 ^ 37

/-- R351: the firmware region is the top 1 GiB of the near tier. -/
def Part.fwBase (p : Part) : Nat := p.nearBytes - 2 ^ 30

/-- R4: near-tier stacks of a C-die. -/
def Part.stacksPerDie (p : Part) : Nat := p.n / p.c

/-- R24: the X-die that serves a column. -/
def Part.serving (p : Part) (column : Nat) : Nat := column * p.x / (p.c / 2)

/-- R5: D-dies on X-die k. -/
def Part.ddiesOn (p : Part) (k : Nat) : Nat := p.d / 2 / p.x + bit (k < p.d / 2 % p.x)

/-- R55: the lowest D-die of X-die k. -/
def Part.firstDdie (p : Part) (k : Nat) : Nat := ((List.range k).map p.ddiesOn).foldl (· + ·) 0

/-- R5, R55: the X-die that D-die d attaches to. -/
def Part.xdieOf (p : Part) (d : Nat) : Nat :=
  (((List.range p.x).filter fun k => p.firstDdie k ≤ d).getLast?).getD 0

def Part.hasDie (p : Part) (k : DieKind) (die : Nat) : Bool :=
  match k with
  | .c => die < p.c
  | .x => die < p.x
  | .d => die < p.d / 2

def clusterOf (i : Nat) : ClusterId := ⟨i / 16, i % 16⟩

def State.cluster? (s : State) (e : ClusterId) : Option Cluster :=
  if e.cluster < 16 then s.clusters[e.index]? else none

def State.modCluster (s : State) (e : ClusterId) (f : Cluster → Cluster) : State :=
  { s with clusters := s.clusters.modify e.index f }

def State.thread? (s : State) (t : ThreadId) : Option Thread :=
  (s.cluster? t.at_).bind fun c => c.threads[t.thread]?

def State.modThread (s : State) (t : ThreadId) (f : Thread → Thread) : State :=
  s.modCluster t.at_ fun c => { c with threads := c.threads.modify t.thread f }

def State.modMatrix (s : State) (e : ClusterId) (f : MatrixEngine → MatrixEngine) : State :=
  s.modCluster e fun c => { c with matrix := f c.matrix }

def State.modVector (s : State) (e : ClusterId) (f : VectorEngine → VectorEngine) : State :=
  s.modCluster e fun c => { c with vector := f c.vector }

def State.carrel? (s : State) (k : Nat) : Option Carrel := s.carrels[k]?

def State.modCarrel (s : State) (k : Nat) (f : Carrel → Carrel) : State :=
  { s with carrels := s.carrels.modify k f }

def State.queue? (s : State) (q : Nat) : Option Queue := s.queues.find? fun x => x.num == q

def State.modQueue (s : State) (q : Nat) (f : Queue → Queue) : State :=
  { s with queues := updIf (fun x => x.num == q) f s.queues }

def State.die? (s : State) (k : DieKind) (die : Nat) : Option DiePower :=
  s.power.dies.find? fun d => d.kind == k && d.die == die

def State.modDie (s : State) (k : DieKind) (die : Nat) (f : DiePower → DiePower) : State :=
  { s with power := { s.power with dies := updIf (fun d => d.kind == k && d.die == die) f s.power.dies } }

def State.stack? (s : State) (tier : Space) (k : Nat) : Option Stack :=
  s.memStacks.find? fun x => x.tier == tier && x.stack == k

def State.modStack (s : State) (tier : Space) (k : Nat) (f : Stack → Stack) : State :=
  { s with memStacks := updIf (fun x => x.tier == tier && x.stack == k) f s.memStacks }

def Stack.count (x : Stack) (f : StackCounters → StackCounters) : Stack := { x with counters := f x.counters }

/-! ## Time and power domains (R41, R42, R500 to R502, R507, R508) -/

/-- Firmware has started, so interrupts and records are produced (R496). -/
def State.fwRuns (s : State) : Bool := s.fw.timeRuns

/-- R507: the counters that a timestamp may be taken from: DIE_KIND, DIE, UNIT. -/
def Part.timeCounters (p : Part) : List (Nat × Nat × Nat) :=
  ((List.range p.c).flatMap fun d => ((List.range 16) ++ [0xFFFF]).map fun u => (0, d, u))
    ++ ((List.range p.x).map fun d => (1, d, 0xFFFF)) ++ ((List.range (p.d / 2)).map fun d => (2, d, 0xFFFF)) ++ [(3, 0, 0xFFFF)]

/-- R508: firmware correlates every counter anew; each offset and rate is a free value (log 11). -/
def State.correlate (s : State) : State :=
  let l := s.fuses.part.timeCounters
  { s with
    power := { s.power with
      clocks := l.mapIdx fun i k =>
        ⟨k.1, k.2.1, k.2.2, Config.freeValue (s.freeCtr + 2 * i), Config.freeValue (s.freeCtr + 2 * i + 1)⟩ }
    freeCtr := s.freeCtr + 2 * l.length }

/-- A counter of R41 by its name. -/
def Ticks.is (kind die unit : Nat) (t : Ticks) : Bool := t.kind == kind && t.die == die && t.unit == unit

/-- R41: a reading of a local counter. How far it has counted since the last one is a free value (log 11); a control core's does not count
while its cluster's domain is off. -/
def State.ticked (s : State) (kind die unit : Nat) : Word64 × State :=
  let f := s.fresh
  let off := kind == 0 && unit < 16 && s.power.gated.contains (.cluster ⟨die, unit⟩)
  let more := if off then 0#64 else f.1
  let was := (s.power.ticks.find? (Ticks.is kind die unit)).elim 0#64 fun t => t.count
  (was + more, { f.2 with power := { s.power with
    ticks := updIf (Ticks.is kind die unit) (fun t => { t with count := was + more }) s.power.ticks } })

/-- R41: the counters of a domain read 0 when it powers up. -/
def Power.startTicks (p : Power) (d : Domain) : Power :=
  match d with
  | .cluster e => { p with ticks := updIf (Ticks.is 0 e.cdie e.cluster) (fun t => { t with count := 0#64 }) p.ticks }
  | .conventional _ => p
  | .update _ _ => p
  | .windwayPort _ => p
  | .consort _ => p
  | .engines _ => p

/-- The die whose block counts a domain. -/
def domainDie : Domain → DieKind × Nat
  | .cluster e => (.c, e.cdie)
  | .conventional c => (.c, c)
  | .update k d => (k, d)
  | .windwayPort p => (.x, p / 4)
  | .consort x => (.x, x)
  | .engines x => (.x, x)

/-- R41, R501, R508: powers a gated domain again, for the work that needs it or at a wake; firmware correlates the counters anew. -/
def State.powerUp (s : State) (d : Domain) : State :=
  if s.power.gated.contains d then
    let die := domainDie d
    let p := { s.power with gated := s.power.gated.filter fun g => g != d }
    let s := ({ s with power := p.startTicks d }).modDie die.1 die.2 fun x => { x with wakes := bump x.wakes 1 }
    if s.fwRuns then s.correlate else s
  else s

/-! ## Messages to the host (R80, R82, R84, R85) -/

/-- R80: the device may issue requests to host memory. -/
def State.canMaster (s : State) : Bool :=
  s.cfg.busMaster && !(s.session.state == .orphaned) && !s.cfg.d3hot

/-- Sends a TLP, with an ECRC while ECRC Generation Enable is 1 (R87); R66: a link in L1 leaves it to do so. -/
def State.send (s : State) (t : Tlp) : State :=
  { s with out := s.out ++ [.tlp t s.cfg.ecrcGenerate], link := { s.link with inL1 := false } }

/-- R81: a host write goes no further than Max_Payload_Size and the next 4 KiB boundary. -/
def State.writeLimit (s : State) (a n : Nat) : Nat := min n (min (2 ^ (s.cfg.maxPayload + 7)) (4096 - a % 4096))

/-- R81: bytes written to host memory, split into requests; fuel bounds them. R82: relaxed is set on DMA data alone. -/
def State.sendWrites (relaxed : Bool) : Nat → State → Nat → List Byte → State
  | 0, s, _, _ => s
  | fuel + 1, s, a, bs =>
    if bs.isEmpty then s
    else
      let k := s.writeLimit a bs.length
      sendWrites relaxed fuel (s.send (.hostWrite a (bs.take k) relaxed)) (a + k) (bs.drop k)

/-- R81, R82: a record, a progress word or a thread's store: never relaxed. -/
def State.sendWrite (s : State) (a : Nat) (bs : List Byte) : State := s.sendWrites false (bs.length + 1) a bs

/-- R85: the message of vector v may be sent. -/
def State.sendable (s : State) (v : Nat) : Bool :=
  s.canMaster && s.cfg.msixEnable && !s.cfg.functionMask
    && (match s.bar0.msix[v]? with | some e => !e.masked | none => false)

/-- R85: sends the message of vector v if it is pending and may be sent. -/
def State.flushVector (s : State) (v : Nat) : State :=
  if s.bar0.pba.getLsbD v && s.sendable v then
    match s.bar0.msix[v]? with
    | some e =>
      ({ s with bar0 := { s.bar0 with pba := s.bar0.pba &&& ~~~(1#256 <<< v) } }).send (.msix v e.addr e.data)
    | none => s
  else s

/-- R85: sends every pending message that may be sent. -/
def State.flushMsix (s : State) : State := (List.range 256).foldl State.flushVector s

/-- R84, R85: an event of an interrupt source. -/
def State.raise (s : State) (source : Nat) : State :=
  match s.bar0.intMap[source]? with
  | some e =>
    if e.disable then s
    else
      ({ s with bar0 := { s.bar0 with pba := s.bar0.pba ||| (1#256 <<< e.vector.toNat) } }).flushVector e.vector.toNat
  | none => s

/-! ## Completions and carrels (R107 to R109, R560) -/

/-- R109: the 32 bytes of a completion entry. -/
def Completion.bytes (e : Completion) : List Byte :=
  leBytes 4 e.seq.toNat ++ leBytes 4 e.ticket.toNat ++ leBytes 2 e.opcode ++ leBytes 2 e.queue ++ leBytes 4 e.tag.toNat
    ++ leBytes 2 e.status ++ leBytes 2 e.detail ++ leBytes 4 e.lo.toNat ++ leBytes 4 e.hi.toNat ++ zeros 4

/-- R107: completion seq fits the ring while seq - CPL_HEAD is at most 64. -/
def Carrel.fits (c : Carrel) (seq : Word32) : Bool := (seq - c.cplHead).toNat ≤ 64

/-- R107: the ring entry of a completion. -/
def slotOf (seq : Word32) : Nat := (seq - 1#32).toNat % 64

/-- R107 steps 1 and 2: a completion enters the ring as number CPL_TAIL + 1, its mirror write due when a mirror is set. -/
def Carrel.enter (c : Carrel) (e : Completion) : Carrel :=
  let seq := c.cplTail + 1#32
  let e := { e with seq := seq }
  { c with
    ring := (c.ring.filter fun p => p.1 != slotOf seq) ++ [(slotOf seq, e)]
    cplTail := seq
    mirrorDue := if c.mirror == 0#64 then [] else c.mirrorDue ++ [e] }

/-- R107 step 3, R80: mirrors the completions that wait for it, once mastering is allowed. -/
def State.flushMirror (s : State) (k : Nat) : State :=
  match s.carrel? k with
  | none => s
  | some c =>
    if c.mirrorDue.isEmpty || !s.canMaster then s
    else
      let s := c.mirrorDue.foldl (fun s e =>
        (s.sendWrite (c.mirror.toNat + 32 * slotOf e.seq) e.bytes).sendWrite (c.mirror.toNat + 2048) (leBytes 4 e.seq.toNat)) s
      s.modCarrel k fun c => { c with mirrorDue := [] }

/-- Posts a completion (or a fault event) in carrel k. R107: it goes through the four steps at once, or waits behind those held before it. -/
def State.post (s : State) (k : Nat) (e : Completion) : State :=
  match s.carrel? k with
  | none => s
  | some c =>
    if c.hold.isEmpty && c.fits (c.cplTail + 1#32) then ((s.modCarrel k fun c => c.enter e).flushMirror k).raise k
    else s.modCarrel k fun c => { c with hold := c.hold ++ [e] }

/-- R107: the held completions of carrel k go on, one by one, as far as the ring takes them. -/
def State.pump (s : State) (k : Nat) : State :=
  match s.carrel? k with
  | none => s
  | some c => c.hold.foldl (fun s e => s.post k e) (s.modCarrel k fun c => { c with hold := [] })

/-- R560: the completions a carrel holds, ring and hold list. -/
def Carrel.heldCount (c : Carrel) : Nat := c.hold.length + (c.cplTail - c.cplHead).toNat

/-- R560: discards a carrel's completions. -/
def Carrel.discard (c : Carrel) : Carrel := { c with hold := [], cplTail := c.cplHead, mirrorDue := [] }

/-- R108: a full hold list keeps operations from starting. -/
def State.carrelFull (s : State) (k : Nat) : Bool :=
  match s.carrel? k with
  | none => false
  | some c => 65536 ≤ c.hold.length

/-- R110: takes the carrel's next ticket. -/
def State.newTicket (s : State) (k : Nat) : Word32 × State :=
  match s.carrel? k with
  | none => (0#32, s)
  | some c =>
    (c.nextTicket, s.modCarrel k fun c =>
      { c with nextTicket := if c.nextTicket + 1#32 == 0#32 then 1#32 else c.nextTicket + 1#32 })

/-- R109, R343: the completion entry of an item. -/
def itemCompletion (q : Queue) (it : Item) (status detail : Nat) (lo hi : Word32) : Completion :=
  { seq := 0#32, ticket := it.ticket, opcode := it.opcode, queue := q.num, tag := it.tag,
    status := status, detail := detail, lo := lo, hi := hi }

/-- R109: the leading items of a queue that have ended, and the rest. -/
def splitEnded (q : Queue) : List Item → List Completion × List Item
  | [] => ([], [])
  | it :: rest =>
    match it.state with
    | .ended status detail lo hi =>
      let r := splitEnded q rest
      (itemCompletion q it status detail lo hi :: r.1, r.2)
    | .waiting => ([], it :: rest)
    | .started => ([], it :: rest)

/-- R109: posts the completions of a queue in submission order. -/
def State.postQueue (s : State) (num : Nat) : State :=
  match s.queue? num with
  | none => s
  | some q =>
    let r := splitEnded q q.items
    r.1.foldl (fun s e => s.post q.carrel e) (s.modQueue num fun q => { q with items := r.2 })

/-- An item of a queue ends. -/
def State.endItem (s : State) (num uid status detail : Nat) (lo hi : Word32) : State :=
  (s.modQueue num fun q =>
    { q with items := updIf (fun it => it.uid == uid) (fun it => { it with state := .ended status detail lo hi }) q.items
    }).postQueue num

/-- An operation ends: a queue's item is completed, a thread's issue is no longer outstanding (R346, R364). -/
def State.endWork (s : State) (w : Work) (status detail : Nat) (lo hi : Word32) : State :=
  match w.issuer with
  | .queue num => s.endItem num w.uid status detail lo hi
  | .thread t _ _ => s.modThread t fun th => { th with issued := th.issued.filter fun u => u != w.uid }
  | .debug _ => s

/-! ## Ledger (R546 to R550) -/

/-- R42, R547: TIME_MS, a timestamp in whole milliseconds, or 0 before the end of start-up. -/
def State.timeMs (s : State) : Word32 × State :=
  if s.fw.timeRuns then
    let r := s.fresh
    (r.1.setWidth 32, r.2)
  else (0#32, s)

/-- What a Ledger record says, its number, time, serial, start and CRC apart. -/
structure Record where
  cls      : Nat
  severity : Nat
  siteKind : Nat
  site     : Nat
  unit     : Nat
  injected : Bool
  /-- payload words 0x20, 0x24, … -/
  payload  : List Nat

/-- R547: the 16 words of a record. -/
def recordWords (number : Nat) (r : Record) (timeMs : Word32) (serial : BitVec 96) (startId : Word32) : List Word32 :=
  let w := [number, r.cls % 65536 + r.severity * 2 ^ 16 + r.siteKind * 2 ^ 20 + bit r.injected * 2 ^ 24,
    r.site % 65536 + r.unit % 65536 * 2 ^ 16, timeMs.toNat, serial.toNat, serial.toNat / 2 ^ 32, serial.toNat / 2 ^ 64,
    startId.toNat] ++ (r.payload ++ List.replicate 7 0).take 7
  let words := w.map (BitVec.ofNat 32)
  words ++ [BitVec.ofNat 32 (crc32 (words.flatMap fun x => leBytes 4 x.toNat))]

/-- R546: appends a record, overwriting the oldest when the ring is full, and raises source 64. Answers its number. Before
firmware has set the next number (phase 7) no record is written. -/
def State.record (s : State) (r : Record) : Nat × State :=
  if s.ledger.next == 0 then (0, s)
  else
    let t := s.timeMs
    let s := t.2
    let n := s.ledger.next
    let w := recordWords n r t.1 s.fuses.serial s.fw.startId
    let full := 65536 ≤ s.ledger.records.length
    let old := if full then s.ledger.records.head?.map fun r => (r.getD 0 0#32).toNat else none
    let lost := match old with
      | some k => !s.ledger.returned.contains k
      | none => false
    let s := { s with
      ledger := { s.ledger with
        records := (if full then s.ledger.records.drop 1 else s.ledger.records) ++ [w]
        next := n + 1
        returned := s.ledger.returned.filter fun k => some k != old }
      host := { s.host with overwritten := bump s.host.overwritten (bit lost) } }
    (n, s.raise 64)

def State.log (s : State) (r : Record) : State := (s.record r).2

/-! ## Bytes of a store (log 2) -/

/-- What an unlisted address reads as: the free contents of the last event that left it undefined, or 0. -/
def unlisted (us : List Undef) (a : Nat) : Byte :=
  match us.find? fun u => u.lo ≤ a && a < u.hi with
  | some u => Config.freeByte u.tag a
  | none => 0#8

/-- One byte. -/
def Store.byteAt (m : Store) (a : Nat) : Byte :=
  match m.cells.find? fun c => c.1 == a with
  | some c => c.2
  | none => unlisted m.undef a

/-- n bytes from a. -/
def Store.read (m : Store) (a n : Nat) : List Byte := (List.range n).map fun i => m.byteAt (a + i)

/-- The parts of an undefined range outside lo to hi - 1. -/
def Undef.minus (lo hi : Nat) (u : Undef) : List Undef :=
  (if u.lo < min u.hi lo then [{ u with hi := min u.hi lo }] else [])
    ++ (if max u.lo hi < u.hi then [{ u with lo := max u.lo hi }] else [])

/-- The cells of bytes laid from an address, those of value 0 left out. -/
def cellsFrom : Nat → List Byte → List Host.Cell
  | _, [] => []
  | a, b :: bs => if b == 0#8 then cellsFrom (a + 1) bs else (a, b) :: cellsFrom (a + 1) bs

/-- Writes bytes from a, keeping the canonical form. -/
def Store.write (m : Store) (a : Nat) (bs : List Byte) : Store :=
  { m with
    cells := (m.cells.filter fun c => c.1 < a) ++ cellsFrom a bs ++ (m.cells.filter fun c => a + bs.length ≤ c.1)
    undef := m.undef.flatMap (Undef.minus a (a + bs.length)) }

/-- The contents of lo to hi - 1 become undefined. -/
def Store.forget (m : Store) (lo hi tag : Nat) : Store :=
  { m with
    cells := m.cells.filter fun c => c.1 < lo || hi ≤ c.1
    undef := ⟨lo, hi, tag⟩ :: m.undef.flatMap (Undef.minus lo hi) }

/-- Strictly rising addresses. -/
def risingCells : List Host.Cell → Bool
  | [] => true
  | [_] => true
  | a :: b :: rest => a.1 < b.1 && risingCells (b :: rest)

/-- The canonical form of a store: addresses strictly rising, no listed byte 0 or inside an undefined range. -/
def Store.wf (m : Store) : Bool :=
  risingCells m.cells && m.cells.all fun c => c.2 != 0#8 && m.undef.all fun u => c.1 < u.lo || u.hi ≤ c.1

/-- The canonical form of the memories. -/
def Memory.wf (m : Memory) : Bool := m.near.wf && m.dep.wf && m.loc.wf

def Memory.store (m : Memory) (sp : Space) : Store :=
  match sp with
  | .near => m.near
  | .dep => m.dep
  | .loc => m.loc

def Memory.setStore (m : Memory) (sp : Space) (st : Store) : Memory :=
  match sp with
  | .near => { m with near := st }
  | .dep => { m with dep := st }
  | .loc => { m with loc := st }

def State.setStore (s : State) (sp : Space) (st : Store) : State := { s with mem := s.mem.setStore sp st }

/-- How many bytes a space has. -/
def Part.spaceBytes (p : Part) (sp : Space) : Nat :=
  match sp with
  | .near => p.nearBytes
  | .dep => p.depBytes
  | .loc => 16 * p.c * 2 ^ 25

/-- The contents of a whole space become undefined (R88, R264, R384). -/
def State.forgetSpace (s : State) (sp : Space) : State :=
  let st := s.mem.store sp
  { (s.setStore sp { (st.forget 0 (s.fuses.part.spaceBytes sp) s.freeCtr) with poison := [], planted := [] }) with
    freeCtr := s.freeCtr + 1 }

/-! ## Shelving (R380) and the units behind a burst (R30, R31, R58, R59, R386) -/

def Part.stacksOf (p : Part) (sp : Space) : Nat :=
  match sp with
  | .near => p.n
  | .dep => p.d
  | .loc => 0

def Translation.key (tr : Translation) (sp : Space) : Nat :=
  match sp with
  | .near => tr.nearKey.toNat
  | .dep => tr.depKey.toNat
  | .loc => 0

/-- R380: the rotation of stripe t. -/
def stripeHash (key t : Nat) : Nat :=
  flutter (key % 2 ^ 64) (field key 95 64) (Nat.xor (field key 127 96 * 2 ^ 16) t)

/-- R380: the place of tier offset o: stack, channel, byte address in the channel. -/
def shelve (nstacks key o : Nat) : Nat × Nat × Nat :=
  let q := o / 512
  let t := q / nstacks
  let p := q % nstacks
  ((p + stripeHash key t % nstacks) % nstacks, (o / 64) % 8, 64 * t + o % 64)

/-- R380 the other way: the tier offset of a place. -/
def unshelve (nstacks key stack channel addr : Nat) : Nat :=
  let t := addr / 64
  let p := (stack + nstacks - stripeHash key t % nstacks) % nstacks
  (t * nstacks + p) * 512 + channel * 64 + addr % 64

def State.place (s : State) (sp : Space) (o : Nat) : Nat × Nat × Nat :=
  shelve (s.fuses.part.stacksOf sp) (s.tr.key sp) o

/-- R58: the controller that drives a channel, and its die; 8 is a D-die's (R370). -/
def Part.controller (p : Part) (sp : Space) (stack channel : Nat) : Nat × Nat :=
  match sp with
  | .near => (stack / p.stacksPerDie, channel % 4)
  | .dep => (stack / 2, 8)
  | .loc => (0, 0)

/-- R59: the group of a stack. -/
def Part.groupOf (p : Part) (stack : Nat) : Nat := if p.c ≤ 4 then stack / 8 else stack / 4

/-- R59: groups of a tier. -/
def Part.groups (p : Part) (sp : Space) : Nat := ceilDiv (p.stacksOf sp) (if p.c ≤ 4 then 8 else 4)

/-- R550: whether a channel is served by its group's spare. -/
def State.onSpare (s : State) (sp : Space) (stack channel : Nat) : Bool :=
  s.phys.spares.any fun x => x.tier == sp && x.stack == stack && x.channel == channel && (x.state == 1 || x.state == 2)

/-! ## Injection (R480, R553) -/

/-- R553: the events of a kind at a unit. The event now counted, whether it is affected and in which mode: 0 when not. -/
def State.injectEvent (s : State) (kind unit : Nat) : Nat × State :=
  match s.injections.find? fun i => i.kind == kind && i.unit == unit with
  | none => (0, s)
  | some i =>
    let f := flutter i.seed.toNat (0xC0000000 + 0x1000 * kind + unit) i.events
    let is := updIf (fun i => i.kind == kind && i.unit == unit) (fun i => { i with events := i.events + 1 }) s.injections
    let s := { s with injections := is }
    (if f % 2 ^ 32 < i.rate.toNat then i.mode else 0, s)

/-! ## The Spine (R24 to R27) -/

/-- R61: the instances of the links of a kind begin here: port pairs 0, column links, X-die links, bridges, D-die links. -/
def Part.columnLinks (p : Part) : Nat := p.c - 2
def Part.xdieLinks (p : Part) : Nat := p.columnLinks + p.c / 2
def Part.bridges (p : Part) : Nat := p.xdieLinks + p.c
def Part.ddieLinks (p : Part) : Nat := p.bridges + (p.x - 1)

/-- Hops along a row from C-die a, a step of one column each way; SPINE_LINK instance and direction (0 from A to B). -/
def rowHops (a fromCol toCol : Nat) : List (Nat × Nat) :=
  if fromCol ≤ toCol then (List.range (toCol - fromCol)).map fun i => (a + 2 * i, 0)
  else (List.range (fromCol - toCol)).map fun i => (a - 2 * (i + 1), 1)

/-- R27 step 2: the column of those that X-die k serves that is nearest to a column, of two equally near the lower. -/
def Part.nearestColumn (p : Part) (k col : Nat) : Nat :=
  let far (j : Nat) : Nat := (j - col) + (col - j)
  ((List.range (p.c / 2)).filter fun j => p.serving j == k).foldl
    (fun best j => match best with
      | none => some j
      | some b => if far j < far b then some j else some b) (none : Option Nat) |>.getD 0

/-- R27 step 3: from X-die a to X-die b over the chain of bridges. -/
def Part.bridgeHops (p : Part) (a b : Nat) : List (Nat × Nat) :=
  if a ≤ b then (List.range (b - a)).map fun i => (p.bridges + a + i, 0)
  else (List.range (a - b)).map fun i => (p.bridges + a - 1 - i, 1)

/-- R27 step 3: from X-die k to a die. -/
def Part.pathFromX (p : Part) (k : Nat) (dst : DieKind × Nat) : List (Nat × Nat) :=
  match dst.1 with
  | .x => p.bridgeHops k dst.2
  | .d => p.bridgeHops k (p.xdieOf dst.2) ++ [(p.ddieLinks + dst.2, 0)]
  | .c => p.bridgeHops k (p.serving (dst.2 / 2)) ++ [(p.xdieLinks + dst.2, 1)]

/-- R27: the one fixed path from a die to a die: SPINE_LINK instances with their directions, in order. -/
def Part.spinePath (p : Part) (src dst : DieKind × Nat) : List (Nat × Nat) :=
  if src == dst then []
  else
    match src.1, dst.1 with
    | .d, _ => (p.ddieLinks + src.2, 1) :: p.pathFromX (p.xdieOf src.2) dst
    | .x, _ => p.pathFromX src.2 dst
    | .c, .c =>
      let at_ := 2 * (dst.2 / 2) + src.2 % 2
      rowHops src.2 (src.2 / 2) (dst.2 / 2)
        ++ (if at_ == dst.2 then [] else [(p.columnLinks + dst.2 / 2, if at_ < dst.2 then 0 else 1)])
    | .c, _ =>
      let k := if dst.1 == .d then p.xdieOf dst.2 else dst.2
      let col := p.nearestColumn k (src.2 / 2)
      rowHops src.2 (src.2 / 2) col ++ (p.xdieLinks + 2 * col + src.2 % 2, 0) :: p.pathFromX k dst

/-- R553: how many of the next n flits of a link its injection setting affects; sent flits have gone since the setting. -/
def spineHits (is : List Injection) (link sent n : Nat) : Nat :=
  match is.find? fun i => i.kind == 4 && i.unit == link with
  | none => 0
  | some i =>
    ((List.range n).filter fun k => flutter i.seed.toNat (0xC0000000 + 0x1000 * 4 + link) (sent + k) % 2 ^ 32 < i.rate.toNat).length

/-- R545, R553, R555: flits cross a link; those that injection affects are replayed. -/
def SpineLink.cross (is : List Injection) (link dir n : Nat) (l : SpineLink) : SpineLink :=
  let hits := spineHits is link l.sent n
  let l := { l with replays := bump l.replays hits, injected := bump l.injected hits, sent := l.sent + n }
  if dir == 0 then { l with flitsAb := bump l.flitsAb n } else { l with flitsBa := bump l.flitsBa n }

/-- R27, R555: a message of n bytes goes from die to die; every link of its path counts its flits (log 58). -/
def State.crossSpine (s : State) (src dst : DieKind × Nat) (n : Nat) : State :=
  if src == dst then s
  else
    let flits := 1 + Config.flitsOf n
    { s with
      spine := (s.fuses.part.spinePath src dst).foldl (fun ls hop =>
        ls.modify hop.1 (SpineLink.cross s.injections hop.1 hop.2 flits)) s.spine }

/-- The die a requester stands on (R370); none where its accesses leave from the memory's own die. -/
def dieOf : Requester → Option (DieKind × Nat)
  | .thread t => some (.c, t.at_.cdie)
  | .matrix e => some (.c, e.cdie)
  | .vector e => some (.c, e.cdie)
  | .conventional c => some (.c, c)
  | .routing x => some (.x, x)
  | .dma x _ => some (.x, x)
  | .consort x => some (.x, x)
  | .port d u => some (if u == 8 then (.d, d) else (.c, d))
  | .update _ => none
  | .peer _ => none

/-- R27: n bytes go from a requester to X-die k, where a port takes them off the part; or come back. -/
def State.crossOut (s : State) (r : Requester) (k n : Nat) : State :=
  match dieOf r with
  | some d => s.crossSpine d (.x, k) n
  | none => s

def State.crossIn (s : State) (r : Requester) (k n : Nat) : State :=
  match dieOf r with
  | some d => s.crossSpine (.x, k) d n
  | none => s

/-! ## ECC (R387 to R392, R545, R551) -/

/-- Who reads or writes memory, for the Ledger: REQ_KIND of R370 (14 a scrub, 15 a BAR2 write), the address of a BAR2 read, and the die
from which its accesses cross the Spine (R27); none: that of the memory itself, as for an engine in its own local memory. -/
structure Reader where
  kind : Nat
  bar2 : Option Nat
  die  : Option (DieKind × Nat)

/-- The same requester, standing on a die. -/
def Reader.on (r : Reader) (die : DieKind × Nat) : Reader := { r with die := some die }

/-- R370 and R550 give firmware and peers no REQ_KIND: theirs is a free value (log 34). Firmware runs on X-die 0. -/
def State.freeReader (s : State) : Reader × State :=
  let f := s.fresh
  (⟨f.1.toNat % 16, none, some (.x, 0)⟩, f.2)

/-- R550: the CHANNEL_FAILED record of a channel. -/
def State.channelRecord (s : State) (sp : Space) (stack channel cause count offset : Nat) : Record :=
  let p := s.fuses.part
  let ctl := p.controller sp stack channel
  { cls := 0x0011, severity := 1, siteKind := sp.siteKind, site := stack, unit := channel, injected := false,
    payload := [cause + (if ctl.2 == 8 then 0 else ctl.2) * 2 ^ 8 + ctl.1 * 2 ^ 16
        + bit (s.onSpare sp stack channel) * 2 ^ 24,
      count, offset % 2 ^ 32, offset / 2 ^ 32] }

/-- R392: an uncorrectable burst counts toward CHANNEL_FAILED when it was not injected (R554). -/
def State.noteUe (s : State) (sp : Space) (o : Nat) : State :=
  let pl := s.place sp o
  let key := pl.2.1
  match s.stack? sp pl.1 with
  | none => s
  | some x =>
    if x.ueBursts.contains (key, pl.2.2 / 64) then s
    else
      let ues := x.ueBursts ++ [(key, pl.2.2 / 64)]
      let n := (ues.filter fun u => u.1 == key).length
      let s := s.modStack sp pl.1 fun x => { x with ueBursts := ues }
      if 2 ≤ n && !x.reported.contains key then
        (s.log (s.channelRecord sp pl.1 key 1 n o)).modStack sp pl.1 fun x => { x with reported := x.reported ++ [key] }
      else s

/-- R551: two distinct uncorrectable places of a cluster write CLUSTER_FAILED. A place is the number of a word of local memory, or one
beyond them all. -/
def State.noteClusterUe (s : State) (e : ClusterId) (place : Nat) : State :=
  match s.cluster? e with
  | none => s
  | some c =>
    if c.uePlaces.contains place then s
    else
      let s := s.modCluster e fun c => { c with uePlaces := c.uePlaces ++ [place] }
      if c.uePlaces.length == 1 then
        let phys := match s.phys.clusters.find? fun o => o.cdie == e.cdie && o.cluster == e.cluster with
          | some o => o.phys
          | none => 0xFFFF
        s.log { cls := 0x0010, severity := 1, siteKind := 8, site := e.index, unit := phys, injected := false,
                payload := [1, 2] }
      else s

/-- The die whose counter block counts an event in a place of a space (R555). -/
def State.dieOfPlace (s : State) (sp : Space) (o : Nat) : DieKind × Nat :=
  match sp with
  | .near => (.c, (s.place .near o).1 / s.fuses.part.stacksPerDie)
  | .dep => (.d, (s.place .dep o).1 / 2)
  | .loc => (.c, o / 2 ^ 29)

def State.countInjected (s : State) (sp : Space) (o : Nat) : State :=
  let d := s.dieOfPlace sp o
  s.modDie d.1 d.2 fun x => { x with injected := bump x.injected 1 }

/-- A unit that injection has poisoned (R554). -/
def Store.injectedAt (m : Store) (unit : Nat) : Bool := m.planted.contains unit

/-- The units that p picks are no longer poisoned. -/
def Store.heal (m : Store) (p : Nat → Bool) : Store :=
  { m with poison := m.poison.filter fun u => !p u, planted := m.planted.filter fun u => !p u }

/-- R389: an uncorrectable error of the unit that holds offset o: it is poisoned, counted and recorded. Answers the number of the Ledger
record. -/
def State.uncorrectable (s : State) (r : Reader) (sp : Space) (o : Nat) (injected : Bool) : Nat × State :=
  let st := s.mem.store sp
  let s := s.setStore sp { st with
    poison := insertNat (o / sp.unit) st.poison
    planted := if injected then insertNat (o / sp.unit) st.planted else st.planted }
  match sp with
  | .loc =>
    let e := clusterOf (o / 2 ^ 25)
    let s := s.modDie .c e.cdie fun x => { x with sramUe := bump x.sramUe 1 }
    let a := s.record
      { cls := 0x0021, severity := 2, siteKind := 8, site := e.index, unit := 0xFFFF, injected := injected,
        payload := [bit (0x1000000 ≤ o % 2 ^ 25), o % 2 ^ 25] }
    (a.1, if injected then a.2 else a.2.noteClusterUe e (o / 8))
  | _ =>
    let pl := s.place sp o
    let s := s.modStack sp pl.1 fun x => x.count fun c => { c with ue := bump c.ue 1 }
    let base := o / 64 * 64
    let a := match r.bar2 with
      | some va => s.record
          { cls := 0x0023, severity := 2, siteKind := sp.siteKind, site := pl.1, unit := pl.2.1, injected := injected,
            payload := [va % 2 ^ 32, va / 2 ^ 32, sp.bit, base % 2 ^ 32, base / 2 ^ 32] }
      | none => s.record
          { cls := 0x0020, severity := 2, siteKind := sp.siteKind, site := pl.1, unit := pl.2.1, injected := injected,
            payload := [sp.bit + r.kind * 2 ^ 8, base % 2 ^ 32, base / 2 ^ 32, 0] }
    (a.1, if injected then a.2 else a.2.noteUe sp o)

/-- R27: the request of a reader for a protected unit and the answer that carries it cross the Spine, each by the path of its own ends. -/
def State.crossForRead (s : State) (r : Reader) (sp : Space) (o : Nat) : State :=
  match r.die with
  | none => s
  | some at_ =>
    let d := s.dieOfPlace sp o
    (s.crossSpine at_ d 0).crossSpine d at_ sp.unit

/-- R395: one burst of a stack at a tier offset, and the sample that a controller takes of one access in every 4,096. DESIGN CHOICE (log 60):
of the accesses since the last sample, the 4,096th. -/
def Stack.accessed (o : Nat) (x : Stack) : Stack :=
  if x.unsampled == 4095 then { x with bursts := x.bursts + 1, unsampled := 0, samples := (o :: x.samples).take 256 }
  else { x with bursts := x.bursts + 1, unsampled := x.unsampled + 1 }

/-- A protected unit is read: counted, met by injection (R553), and found clean, corrected or uncorrectable: then the Ledger
record's number. -/
def State.readUnit (s : State) (r : Reader) (sp : Space) (o : Nat) : Option Nat × State :=
  let s := s.crossForRead r sp o
  match sp with
  | .loc =>
    let i := if o % 2 ^ 25 < 0x1000000 then s.injectEvent 5 (o / 2 ^ 25) else (0, s)
    if i.1 == 2 then
      let a := (i.2.countInjected sp o).uncorrectable r sp o true
      (some a.1, a.2)
    else if i.2.mem.loc.poison.contains (o / 8) then
      let a := i.2.uncorrectable r sp o (i.2.mem.loc.injectedAt (o / 8))
      (some a.1, a.2)
    else if i.1 == 1 then
      (none, (i.2.countInjected sp o).modDie .c (o / 2 ^ 29) fun x => { x with sramCe := bump x.sramCe 1 })
    else (none, i.2)
  | _ =>
    let stack := (s.place sp o).1
    let s := s.modStack sp stack fun x => (x.accessed o).count fun c => { c with readBursts := bump c.readBursts 1 }
    let i := s.injectEvent (match sp with | .dep => 3 | _ => 2) stack
    if i.1 == 2 then
      let a := (i.2.countInjected sp o).uncorrectable r sp o true
      (some a.1, a.2)
    else if (i.2.mem.store sp).poison.contains (o / 64) then
      let a := i.2.uncorrectable r sp o ((i.2.mem.store sp).injectedAt (o / 64))
      (some a.1, a.2)
    else if i.1 == 1 then
      (none, (i.2.countInjected sp o).modStack sp stack fun x => x.count fun c => { c with ce := bump c.ce 1 })
    else (none, i.2)

/-- The units that bytes o to o + n - 1 touch, by the offset of their first byte. -/
def unitsOf (sp : Space) (o n : Nat) : List Nat :=
  if n == 0 then []
  else (List.range ((o + n - 1) / sp.unit - o / sp.unit + 1)).map fun i => (o / sp.unit + i) * sp.unit

/-- Reads units in order up to the first uncorrectable one. -/
def State.readUnits (s : State) (r : Reader) (sp : Space) : List Nat → Option Nat × State
  | [] => (none, s)
  | o :: os =>
    let a := s.readUnit r sp o
    match a.1 with
    | some n => (some n, a.2)
    | none => a.2.readUnits r sp os

/-- Reads n bytes of a space: the bytes, or the record of an uncorrectable error (R389). -/
def State.readMem (s : State) (r : Reader) (sp : Space) (o n : Nat) : Except Nat (List Byte) × State :=
  let a := s.readUnits r sp (unitsOf sp o n)
  match a.1 with
  | some k => (.error k, a.2)
  | none => (.ok ((a.2.mem.store sp).read o n), a.2)

/-- R27: n bytes that a writer sends to a protected unit cross the Spine. -/
def State.crossForWrite (s : State) (r : Reader) (sp : Space) (o n : Nat) : State :=
  match r.die with
  | none => s
  | some at_ => s.crossSpine at_ (s.dieOfPlace sp o) n

/-- One write within one protected unit (R381, R390). -/
def State.writeUnit (s : State) (r : Reader) (sp : Space) (o : Nat) (bs : List Byte) : State :=
  let s := s.crossForWrite r sp o bs.length
  let st := s.mem.store sp
  let whole := bs.length == sp.unit
  let poisoned := st.poison.contains (o / sp.unit)
  let s := match sp with
    | .loc => s
    | _ =>
      if poisoned && !whole then s
      else s.modStack sp (s.place sp o).1 fun x => (x.accessed o).count fun c =>
        { c with writeBursts := bump c.writeBursts 1, merges := bump c.merges (bit (!whole)) }
  if poisoned && !whole then
    match sp with
    | .loc =>
      let e := clusterOf (o / 2 ^ 25)
      s.log { cls := 0x0021, severity := 2, siteKind := 8, site := e.index, unit := 0xFFFF, injected := st.injectedAt (o / 8),
              payload := [bit (0x1000000 ≤ o % 2 ^ 25), o % 2 ^ 25] }
    | _ =>
      let pl := s.place sp o
      let base := o / 64 * 64
      (s.modStack sp pl.1 fun x => x.count fun c => { c with ue := bump c.ue 1 }).log
        { cls := 0x0020, severity := 2, siteKind := sp.siteKind, site := pl.1, unit := pl.2.1, injected := st.injectedAt (o / 64),
          payload := [sp.bit + r.kind * 2 ^ 8, base % 2 ^ 32, base / 2 ^ 32, 1] }
  else
    s.setStore sp ((st.write o bs).heal fun u => whole && u == o / sp.unit)

/-- Bytes cut at the boundaries of protected units; fuel bounds the pieces. -/
def cutUnits (unit : Nat) : Nat → Nat → List Byte → List (Nat × List Byte)
  | 0, _, _ => []
  | fuel + 1, o, bs =>
    if bs.isEmpty then []
    else
      let n := unit - o % unit
      (o, bs.take n) :: cutUnits unit fuel (o + n) (bs.drop n)

/-- Writes bytes to a space. -/
def State.writeMem (s : State) (r : Reader) (sp : Space) (o : Nat) (bs : List Byte) : State :=
  (cutUnits sp.unit (bs.length + 1) o bs).foldl (fun s p => s.writeUnit r sp p.1 p.2) s

/-! ## Counter blocks (R396, R482, R483, R510, R555, R559) -/

/-- A counter block: group, scope kind, scope, values in order. -/
structure CounterBlock where
  group     : Nat
  scopeKind : Nat
  scope     : Nat
  values    : List Word64

def PortState.code : PortState → Nat
  | .disabled => 0
  | .training => 1
  | .up => 2
  | .down => 3
  | .miswired => 4

def wordOfInt (i : Int) : Word64 := BitVec.ofInt 64 i

def DiePower.values (d : DiePower) : List Word64 :=
  (match d.kind with
    | .c => (d.levelNs ++ List.replicate 6 0#64).take 6 ++ [d.bellowsNs, d.skipped]
    | _ => [])
    ++ [d.gatedNs, d.wakes, wordOfInt d.peakC, d.sramCe, d.sramUe, d.parity, d.tlbRefetch, d.injected]

/-- R482: lanes in use. -/
def Port.lanes (p : Port) : Nat := ((List.range 4).filter fun i => p.inUse.getLsbD i).length

def Port.values (p : Port) : List Word64 :=
  let c := p.counters
  [BitVec.ofNat 64 (p.state.code + 8 * p.lanes), c.fecCorrected, c.fecBad, c.crcErrors, c.naks, c.resent, c.retrains,
    c.peerResetDrops, c.ttlDrops, c.framesTx, c.framesRx, c.payloadTx, c.payloadRx, c.injected, c.creditStallNs]

def Stack.values (x : Stack) : List Word64 :=
  let c := x.counters
  [c.readBursts, c.writeBursts, c.merges, c.ce, c.ue, c.scrubs, c.hotWindows, c.throttleNs, c.holdNs]

/-- Every counter block of the part. DESIGN CHOICE (log 19): the INSTANCE of a block in the Catalogue is its place in the order by GROUP_ID,
then by scope; the manual gives them no order. -/
def State.counterBlocks (s : State) : List CounterBlock :=
  [⟨0x0001, 0, 0, [s.host.badAccess, s.host.emptyRing, s.host.hbIgnored, s.host.historyBad, s.host.overwritten,
      s.host.faultsRetried, s.host.orphanEvents]⟩,
   ⟨0x0002, 0, 0, [BitVec.ofNat 64 s.ww.fabric.rank, s.ww.fabric.fabricId.setWidth 64, s.ww.fabric.word8.setWidth 64,
      s.ww.unreachable, s.ww.timeouts, s.ww.late]⟩,
   ⟨0x0003, 0, 0, [s.power.energyMj, s.power.emPower, s.power.emDie, s.power.emStack, s.power.emVin]⟩]
  ++ s.power.dies.map (fun d => ⟨0x0010, 1, d.kind.code * 2 ^ 16 + d.die, d.values⟩)
  ++ s.clusters.mapIdx (fun i c =>
      ⟨0x0011, 2, i, [c.matrixOps, c.vectorOps, c.preemptions, c.spills, c.suspensions, c.walks]⟩)
  ++ s.memStacks.map (fun x => ⟨0x0020, 3, (match x.tier with | .dep => 2 ^ 16 | _ => 0) + x.stack, x.values⟩)
  ++ s.ww.ports.mapIdx (fun i p => ⟨0x0030, 4, 2 ^ 16 + i, p.values⟩)
  ++ s.spine.mapIdx (fun i l => ⟨0x0031, 4, i, [l.flitsAb, l.flitsBa, l.replays, l.retrains, l.injected]⟩)

/-- R349: where counter blocks begin. DESIGN CHOICE (log 19): block i of the Catalogue lies at i × 64 KiB. -/
def counterBase : Nat := 0x01FE000000000000

/-- R557: the debug window of the flow table. -/
def flowWindow : Nat := 0x01FEF00000000000

/-- R350: the first local window. -/
def localBase : Nat := 0x01FF000000000000

/-- The counters of a block that measure what the model leaves out, and whose values are free (log 11): WALKS; FEC_CORRECTED and
CREDIT_STALL_NS. -/
def CounterBlock.unmeasured (b : CounterBlock) (i : Nat) : Bool :=
  b.group == 0x0011 && i == 5 || b.group == 0x0030 && (i == 1 || i == 14)

/-- The bytes of a counter page; free values stand for what is not measured. -/
def State.counterRead (s : State) (free : Nat → Word64) (o n : Nat) : List Byte :=
  match s.counterBlocks[o / 65536]? with
  | none => zeros n
  | some b =>
    let values := b.values.mapIdx fun i v => if b.unmeasured i then free (i % 2) else v
    ((values.flatMap fun v => leBytes 8 v.toNat).drop (o % 65536) ++ zeros n).take n

/-- R332: the 32 bytes of a flow-table entry. -/
def FlowEntry.bytes (f : FlowEntry) (link : Nat) : List Byte :=
  leBytes 2 f.layer ++ leBytes 2 f.batch ++ leBytes 3 f.token ++ leBytes 1 f.stepTag
    ++ ((f.choices ++ List.replicate 4 0#32).take 4).flatMap (fun c => leBytes 4 c.toNat)
    ++ leBytes 4 (1 + 4 * bit f.nan + 8 * f.k) ++ leBytes 4 link

/-- R557: the debug window's bytes; a FREE entry reads 0. -/
def State.flowRead (s : State) (o n : Nat) : List Byte :=
  let first := o / 32
  let count := (o + n) / 32 + 1 - first
  let bytes := (List.range count).flatMap fun i =>
    match s.routing.table.find? fun f => f.index == first + i with
    | some f => f.bytes 0
    | none => zeros 32
  (bytes.drop (o % 32)).take n

/-! ## Translation (R348 to R354, R367) -/

/-- The accesses of R352; the codes of R369. -/
inductive Acc | read | write | fetch | atomic
  deriving DecidableEq, Repr

def Acc.code : Acc → Nat
  | .read => 0
  | .write => 1
  | .fetch => 2
  | .atomic => 3

def accOfCode (n : Nat) : Acc :=
  if n == 0 then .read else if n == 1 then .write else if n == 2 then .fetch else .atomic

/-- From where an access comes (R352). -/
inductive Origin | device | host | peer
  deriving DecidableEq, Repr

def levelBytes (level : Nat) : Nat := if level == 0 then 2 ^ 16 else if level == 1 then 2 ^ 21 else 2 ^ 30

/-- R354: the target of a leaf for an offset in its page. -/
def Leaf.target (l : Leaf) (va : Nat) : Target :=
  let e := l.entry.toNat
  let base := field e 47 16 * 2 ^ 16 + (va - l.va)
  match field e 10 8 with
  | 0 => .mem .near base
  | 1 => .mem .dep base
  | 2 => .host (e / 2 ^ 16 * 2 ^ 16 + (va - l.va))
  | 3 => .remote (field e 63 52) (field e 51 16 * 2 ^ 16 + (va - l.va))
  | _ => .mem .loc base

/-- R352: whether permissions grant an access. -/
def granted (perm : Nat) (acc : Acc) (o : Origin) : Bool :=
  (match acc with
    | .read => bitAt perm 0
    | .write => bitAt perm 1
    | .fetch => bitAt perm 2
    | .atomic => bitAt perm 0 && bitAt perm 1)
  && (match o with
    | .device => true
    | .host => bitAt perm 3
    | .peer => bitAt perm 4)

/-- R352: whether the kind of a target allows an access. -/
def kindAllows (t : Target) (acc : Acc) : Bool :=
  match acc, t with
  | .fetch, .host _ => false
  | .fetch, .remote _ _ => false
  | .atomic, .host _ => false
  | _, _ => true

/-- R263: backed offsets of a local window. -/
def backed (cluster off : Nat) : Bool :=
  if cluster % 16 == 0 then off < 0x1100000 else off < 0x1040000

/-- The leaf that covers an address. -/
def Translation.leaf? (tr : Translation) (va : Nat) : Option Leaf :=
  tr.leaves.find? fun l => l.va ≤ va && va < l.va + levelBytes l.level

/-- The target and permissions of an address: the fixed ranges of R349, then the leaves. -/
def State.lookup (s : State) (va : Nat) : Option (Target × Nat) :=
  if localBase ≤ va then
    let i := (va - localBase) / 2 ^ 25
    if i < 16 * s.fuses.part.c && backed i ((va - localBase) % 2 ^ 25) then some (.mem .loc (va - localBase), 0xF) else none
  else if flowWindow ≤ va && va < flowWindow + 262144 * 32 then
    if s.fw.debugOn then some (.flow (va - flowWindow), 0x9) else none
  else if counterBase ≤ va then
    if (va - counterBase) / 65536 < s.counterBlocks.length then some (.counter (va - counterBase), 0x9) else none
  else
    match s.tr.leaf? va with
    | none => none
    | some l => some (l.target va, field l.entry.toNat 6 2)

/-- R367: a walk that meets an uncorrectable error in a table page (log 9). -/
def State.walkBad (s : State) (va : Nat) : Bool :=
  s.mem.near.poison.any fun b => s.fuses.part.fwBase ≤ b * 64 && Config.tableSpan b (va / 65536)

/-- R352, R367: translates an access of n bytes that lies in one 64 KiB page, or answers the class of its fault. -/
def State.translate (s : State) (o : Origin) (acc : Acc) (va n : Nat) : Except Nat Target :=
  if 2 ^ 57 ≤ va || 2 ^ 57 < va + n then .error 3
  else if s.walkBad va then .error 5
  else
    match s.lookup va with
    | none => .error 1
    | some (t, perm) =>
      if !kindAllows t acc then .error 4
      else if granted perm acc o then .ok t
      else .error 2

/-- An access cut at 64 KiB pages: address and length; fuel bounds the pieces. -/
def cutPages : Nat → Nat → Nat → List (Nat × Nat)
  | 0, _, _ => []
  | fuel + 1, va, n =>
    if n == 0 then []
    else
      let k := min n (65536 - va % 65536)
      (va, k) :: cutPages fuel (va + k) (n - k)

/-- Translates an access piece by piece; the class and address of the first fault. -/
def State.translateAll (s : State) (o : Origin) (acc : Acc) : List (Nat × Nat) → Except (Nat × Nat) (List (Target × Nat))
  | [] => .ok []
  | p :: ps =>
    match s.translate o acc p.1 p.2 with
    | .error c => .error (c, p.1)
    | .ok t =>
      match s.translateAll o acc ps with
      | .error e => .error e
      | .ok ts => .ok ((t, p.2) :: ts)

/-- R348: translates n bytes from va. An access past 2^57 - 1 is a RANGE fault whatever its pages hold. -/
def State.translateSpan (s : State) (o : Origin) (acc : Acc) (va n : Nat) : Except (Nat × Nat) (List (Target × Nat)) :=
  if 2 ^ 57 < va + n then .error (3, va)
  else s.translateAll o acc (cutPages (n / 65536 + 2) va n)

/-- What an access to virtual memory meets: data, a fault (class, address), an uncorrectable error (its record), or memory
outside the device. -/
inductive Got
  | bytes (b : List Byte)
  | stop (cls va : Nat)
  | dead (record : Nat)
  | away (t : Target)

/-- Reads translated pieces of the device's own memory in order. -/
def State.readPieces (s : State) (r : Reader) : List (Target × Nat) → Got × State
  | [] => (.bytes [], s)
  | (t, n) :: ts =>
    match t with
    | .mem sp o =>
      let a := s.readMem r sp o n
      match a.1 with
      | .error k => (.dead k, a.2)
      | .ok b =>
        match a.2.readPieces r ts with
        | (.bytes b', s') => (.bytes (b ++ b'), s')
        | (g, s') => (g, s')
    | .counter o =>
      let f := s.fresh
      let g := f.2.fresh
      match g.2.readPieces r ts with
      | (.bytes b', s') => (.bytes (s.counterRead (fun i => if i == 0 then f.1 else g.1) o n ++ b'), s')
      | (g, s') => (g, s')
    | .flow o =>
      match s.readPieces r ts with
      | (.bytes b', s') => (.bytes (s.flowRead o n ++ b'), s')
      | (g, s') => (g, s')
    | .host a => (.away (.host a), s)
    | .remote k a => (.away (.remote k a), s)

/-- Reads n bytes at a virtual address. -/
def State.vread (s : State) (r : Reader) (o : Origin) (acc : Acc) (va n : Nat) : Got × State :=
  match s.translateSpan o acc va n with
  | .error (c, a) => (.stop c a, s)
  | .ok ts => s.readPieces r ts

/-- Writes bytes to translated pieces of the device's own memory. -/
def State.writePieces (s : State) (r : Reader) : List (Target × Nat) → List Byte → State
  | [], _ => s
  | (t, n) :: ts, bs =>
    (match t with
      | .mem sp o => s.writeMem r sp o (bs.take n)
      | .counter _ => s
      | .flow _ => s
      | .host _ => s
      | .remote _ _ => s).writePieces r ts (bs.drop n)

/-- The first piece outside the device. -/
def awayOf (ts : List (Target × Nat)) : Option Target :=
  (ts.find? fun p => match p.1 with | .host _ => true | .remote _ _ => true | _ => false).map fun p => p.1

/-- Writes bytes at a virtual address: every page is translated before the first byte is written. -/
def State.vwrite (s : State) (r : Reader) (o : Origin) (acc : Acc) (va : Nat) (bs : List Byte) : Got × State :=
  match s.translateSpan o acc va bs.length with
  | .error (c, a) => (.stop c a, s)
  | .ok ts =>
    match awayOf ts with
    | some t => (.away t, s)
    | none => (.bytes [], s.writePieces r ts bs)

/-- R550: the WALK_ERROR record of an address. -/
def State.walkRecord (s : State) (va : Nat) : Nat × State :=
  s.record { cls := 0x0022, severity := 2, siteKind := 7, site := 0, unit := 0xFFFF, injected := false,
             payload := [va % 2 ^ 32, va / 2 ^ 32] }

/-- R367: how work ends on a fault that does not suspend. -/
def State.faultEnding (s : State) (cls va : Nat) : Ending × State :=
  if cls == 5 then
    let a := s.walkRecord va
    (⟨stDeviceError, a.1 % 65536⟩, a.2)
  else (⟨stTranslationFault, cls⟩, s)

/-- R367: classes that suspend. -/
def suspends (cls : Nat) : Bool := cls == 1 || cls == 2

def suspension (cls : Nat) (acc : Acc) (va : Nat) : Suspension := ⟨cls, acc.code, va, false, false, none⟩

/-! ## Copies (R375) -/

/-- R375: how many granules a copy has. -/
def DmaJob.granules (j : DmaJob) : Nat := (j.dst + j.len - 1) / 4096 - j.dst / 4096 + 1

/-- R375: offset in the copy, and length, of granule g. -/
def DmaJob.granule (j : DmaJob) (g : Nat) : Nat × Nat :=
  let lo := max j.dst ((j.dst / 4096 + g) * 4096)
  let hi := min (j.dst + j.len) ((j.dst / 4096 + g + 1) * 4096)
  (lo - j.dst, hi - lo)

/-! ## Taking a ring (R104, R105, R110, R112) -/

/-- What a command answers: status, detail, response payload, and for ACCEPTED its ticket. -/
structure Answer where
  status  : Nat
  detail  : Nat
  payload : List Byte
  ticket  : Word32

def ans (status : Nat) : Answer := ⟨status, 0, [], 0#32⟩
def ansOk (payload : List Byte) : Answer := ⟨stOk, 0, payload, 0#32⟩
def ansField (detail : Nat) : Answer := ⟨stBadField, detail, [], 0#32⟩
def ansAccepted (ticket : Word32) : Answer := ⟨stAccepted, 0, [], ticket⟩

/-- A row of R112: taken in carrel 0 only, taken before attach, payload length. -/
structure OpRow where
  opcode : Nat
  only0  : Bool
  pre    : Bool
  len    : Nat

/-- R112. Lengths follow its packing rule; LOAD_FIRMWARE's is that of R98. -/
def opTable : List OpRow :=
  [⟨0x0001, true, false, 24⟩, ⟨0x0010, true, true, 24⟩, ⟨0x0011, true, false, 0⟩, ⟨0x0012, true, false, 4⟩,
   ⟨0x0013, true, false, 1⟩, ⟨0x0014, true, false, 1⟩, ⟨0x0015, true, true, 0⟩, ⟨0x0016, false, false, 8⟩,
   ⟨0x0017, false, true, 4⟩, ⟨0x0020, true, false, 12⟩, ⟨0x0021, true, false, 4⟩, ⟨0x0022, false, false, 14⟩,
   ⟨0x0030, false, false, 27⟩, ⟨0x0031, false, false, 16⟩, ⟨0x0032, false, false, 17⟩, ⟨0x0033, true, false, 8⟩,
   ⟨0x0034, true, false, 17⟩, ⟨0x0035, false, false, 34⟩, ⟨0x0036, false, false, 5⟩, ⟨0x0040, false, false, 1⟩,
   ⟨0x0041, false, false, 2⟩, ⟨0x0042, false, false, 14⟩, ⟨0x0043, false, false, 2⟩]
  ++ [⟨0x0050, false, false, 12⟩, ⟨0x0051, false, false, 14⟩, ⟨0x0052, false, false, 2⟩, ⟨0x0058, false, false, 12⟩,
   ⟨0x0059, false, false, 12⟩, ⟨0x005C, false, false, 8⟩, ⟨0x005E, false, false, 12⟩, ⟨0x0060, true, false, 3⟩,
   ⟨0x0061, false, false, 0⟩, ⟨0x0070, true, false, 16⟩, ⟨0x0078, true, false, 1⟩, ⟨0x0079, false, false, 12⟩,
   ⟨0x0080, true, true, 4⟩, ⟨0x0081, true, true, 52⟩, ⟨0x0090, true, true, 4⟩, ⟨0x0091, false, false, 7⟩]

def opRow? (op : Nat) : Option OpRow := opTable.find? fun r => r.opcode == op

/-- n bytes of a carrel's request area, by offset in the carrel. -/
def Carrel.requestBytes (c : Carrel) (off n : Nat) : List Byte :=
  (List.range n).map fun i =>
    match c.request.find? fun p => p.1 == off + i with
    | some p => p.2
    | none => 0#8

/-- R110: OPCODE, PAYLOAD_LEN and TAG of the request. -/
def Carrel.opcode (c : Carrel) : Nat := getLe (c.requestBytes 0x40 2) 0 2
def Carrel.payloadLen (c : Carrel) : Nat := getLe (c.requestBytes 0x42 2) 0 2
def Carrel.tag (c : Carrel) : Word32 := BitVec.ofNat 32 (getLe (c.requestBytes 0x44 4) 0 4)

/-- R104: writes the response, sets RSP_SEQ to the value read when the ring was taken, and raises the carrel's source. -/
def State.respond (s : State) (k : Nat) (q : Word32) (op : Nat) (tag : Word32) (a : Answer) : State :=
  (s.modCarrel k fun c =>
    { c with response := ⟨op, tag, a.status, a.detail, a.ticket, a.payload⟩, rspSeq := q }).raise k

/-- R94: the states in which the boot ROM takes rings. -/
def romTakes : Start → Bool
  | .romRunning => true
  | .romReady => true
  | .fwLoading => true
  | .fwRejected => true
  | _ => false

/-- R96, R105: the status that a request is refused with, before its length is looked at (log 8); 0: it is taken. -/
def State.gate (s : State) (k op : Nat) : Nat :=
  if romTakes s.fw.start then
    if op == 0x0001 && (s.fw.start == .romReady || s.fw.start == .fwRejected) then stOk else stBadState
  else if s.fw.start == .romFailed then stBadState
  else if s.fw.start == .fwFailed then (if k == 0 && op == 0x0090 then stOk else stBadState)
  else if s.fw.start == .shortfall then
    (if k == 0 && (op == 0x0015 || op == 0x0080 || op == 0x0081 || op == 0x0090) then stOk else stBadState)
  else if 0 < k && !(match s.carrel? k with | some c => c.isOpen | none => false) then stNotOpen
  else if 0 < k && s.session.state == .orphaned then stOrphaned
  else
    match opRow? op with
    | none => stBadOpcode
    | some r =>
      if r.only0 && 0 < k then stBadOpcode
      else if op == 0x0001 then stBadState
      else if r.pre then stOk
      else
        match s.session.state with
        | .attached => stOk
        | .detached => stNotAttached
        | .orphaned => stOrphaned

/-- R104: firmware may take a ring now: not before the boot ROM runs, not while firmware starts (DESIGN CHOICE, log 8), not during a handover. -/
def State.takesRings (s : State) : Bool :=
  !(s.fw.start == .off) && !(s.fw.start == .fwStarting) && !(s.fw.activation == .handing)

/-- R105: the boot ROM leaves rings of carrels 1 to 63 unanswered. -/
def State.unanswered (s : State) (k : Nat) : Bool := 0 < k && romTakes s.fw.start

def State.clearPend (s : State) (k : Nat) : State :=
  { s with bar0 := { s.bar0 with pend := s.bar0.pend &&& ~~~(1#64 <<< k) } }

/-- R2: the session's driver and the running firmware implement different Uadin versions. -/
def State.uadinDiffers (s : State) : Bool :=
  match s.fw.running with
  | some i => !(s.session.state == .detached) && i.uadin != s.session.drvUadin
  | none => false

/-- R104: firmware takes no ring of a carrel whose request it has not answered: a DETACH that waits (R117), a DEBUG_READ in an engine's queue
(R225). -/
def State.midRequest (s : State) (k : Nat) : Bool :=
  (k == 0 && s.session.detaching.isSome) || s.clusters.any fun c => c.matrix.queue.any fun w => w.issuer == .debug k

/-- R104, R105: the payload of carrel k's request, where a ring of opcode op that is taken now brings its command to run. -/
def State.reaches (s : State) (k op : Nat) : Option (List Byte) :=
  match s.carrel? k, opRow? op with
  | some c, some r =>
    if s.bar0.pend.getLsbD k && s.takesRings && !s.midRequest k && c.opcode == op && c.reqSeq == c.rspSeq + 1#32
        && !s.unanswered k && s.gate k op == stOk && c.payloadLen == r.len then
      some (c.requestBytes 0x50 r.len)
    else none
  | _, _ => none

/-- A ring whose command must first wait for something: it is left pending until then (log 5). -/
def State.unlessHeld (s : State) (k op : Nat) (waits : List Byte → Bool) (o : Host.Outcome State Fault Refusal) :
    Host.Outcome State Fault Refusal :=
  match s.reaches k op with
  | some pl => if waits pl then .next s else o
  | none => o

/-- R104: the ring of carrel k is taken, its request having opcode op: body executes it, given its payload, and answers it now or later
(none). A ring that is not pending, that cannot be taken, or that carries another opcode is not this event, and changes nothing (log 5). -/
def takeRingLater (k op : Nat) (body : List Byte → State → Option Answer × State) (s : State) : Host.Outcome State Fault Refusal :=
  match s.carrel? k with
  | none => .next s
  | some c =>
    if !s.bar0.pend.getLsbD k || !s.takesRings || s.midRequest k || c.opcode != op then .next s
    else
      let s := s.clearPend k
      if c.reqSeq == c.rspSeq then
        .next { s with host := { s.host with emptyRing := bump s.host.emptyRing 1 } }
      else if s.unanswered k then .next s
      else if c.reqSeq != c.rspSeq + 1#32 then
        .next (s.respond k c.reqSeq op c.tag (ans stBadSequence))
      else
        let g := s.gate k op
        if g != stOk then .next (s.respond k c.reqSeq op c.tag (ans g))
        else
          match opRow? op with
          | none => .next (s.respond k c.reqSeq op c.tag (ans stBadOpcode))
          | some r =>
            if c.payloadLen != r.len then .next (s.respond k c.reqSeq op c.tag (ans stBadLength))
            else if s.uadinDiffers && !r.pre && op != 0x0011 then .fault .uadinMismatch
            else
              let a := body (c.requestBytes 0x50 r.len) s
              .next (match a.1 with
                | some x => a.2.respond k c.reqSeq op c.tag x
                | none => a.2)

/-- R104: the ring of a command that is answered when it is taken. -/
def takeRing (k op : Nat) (body : List Byte → State → Answer × State) (s : State) : Host.Outcome State Fault Refusal :=
  takeRingLater k op (fun pl s => (let a := body pl s; (some a.1, a.2))) s

/-! ## What every command leaves -/

/-- R12: no command changes a field marked F, nor the queue of waiting commands (log 6). -/
def State.fixed (s t : State) : State := { t with fuses := s.fuses, pending := s.pending }

/-- R14, R540, R542: nothing but a reset of the whole part clears a LOCK bit, DEBUG_EVER or INJECT_EVER. -/
def State.latched (s t : State) : State :=
  { t with
    bar0 := { t.bar0 with lock := t.bar0.lock ||| s.bar0.lock }
    fw := { t.fw with debugEver := t.fw.debugEver || s.fw.debugEver, injectEver := t.fw.injectEver || s.fw.injectEver } }

/-- The outcome of a command that is or may be a reset of the whole part. -/
def State.afterReset (s : State) : Host.Outcome State Fault Refusal → Host.Outcome State Fault Refusal
  | .next t => .next (s.fixed t)
  | .fault f => .fault f
  | .refused r => .refused r

/-- The outcome of any other command. -/
def State.after (s : State) : Host.Outcome State Fault Refusal → Host.Outcome State Fault Refusal
  | .next t => .next (s.latched (s.fixed t))
  | .fault f => .fault f
  | .refused r => .refused r

end Sys2Proof.Machine
end

