-- ==== Sys2Proof/Machine/AddressSpace.lean ====
section
/-! DEFINITION. The commands on page tables and shelving keys: MAP, UNMAP, PROTECT, SET_PT_BASE (R349 to R358),
SET_SHELVING_KEY (R382 to R385). -/

namespace Sys2Proof.Machine

/-- The first bad field of a request: payload offsets in order, each with whether the field is bad. -/
def firstBad (l : List (Nat × Bool)) : Option Nat := (l.find? fun p => p.2).map fun p => p.1

/-- R263: the backed bytes of the local window of cluster i. -/
def backedBytes (i : Nat) : Nat := if i % 16 == 0 then 0x1100000 else 0x1040000

/-- R351: whether one page of a kind may have a target. -/
def pageOk (p : Part) (kind target size : Nat) : Bool :=
  match kind with
  | 0 => target + size ≤ p.fwBase
  | 1 => target + size ≤ p.depBytes
  | 2 => target + size ≤ 2 ^ 64
  | 3 => target % 2 ^ 52 + size ≤ 2 ^ 52
  | 4 => target / 2 ^ 25 < 16 * p.c && target % 2 ^ 25 + size ≤ backedBytes (target / 2 ^ 25)
  | _ => false

/-- R351: whether every page of a range may have its target. All kinds but LOCAL are one span, so the range as a whole is tested. -/
def rangeOk (p : Part) (kind target len size : Nat) : Bool :=
  if kind == 4 then
    len ≤ 16 * p.c * 2 ^ 25 && (List.range (len / size)).all fun i => pageOk p 4 (target + i * size) size
  else pageOk p kind target len

/-- R356: PERM's bits [7:5] are 0 and WRITE is granted only with READ. -/
def permOk (perm : Nat) : Bool := perm < 32 && (!bitAt perm 1 || bitAt perm 0)

/-- R354: the entry word of a leaf. -/
def leafWord (kind target perm : Nat) : Word64 := BitVec.ofNat 64 (target + kind * 2 ^ 8 + perm * 4 + 3)

/-- A leaf put in its place by address. -/
def insertLeaf (l : Leaf) : List Leaf → List Leaf
  | [] => [l]
  | m :: ms => if l.va < m.va then l :: m :: ms else m :: insertLeaf l ms

/-- A page overlaps va to va + len - 1. -/
def Leaf.overlaps (l : Leaf) (va len : Nat) : Bool := l.va < va + len && va < l.va + levelBytes l.level

/-- R356: the leaves of a range. -/
def rangeLeaves (va target len level kind perm : Nat) : List Leaf :=
  (List.range (len / levelBytes level)).map fun i =>
    ⟨va + i * levelBytes level, level, leafWord kind (target + i * levelBytes level) perm⟩

/-- R356: MAP's checks in the order of the payload. -/
def mapBad (p : Part) (va target len size kind perm : Nat) : Option Nat :=
  let page := if 2 < size then 1 else levelBytes size
  firstBad
    [(0, va % page != 0 || counterBase ≤ va),
     (8, target % page != 0 || (kind ≤ 4 && size ≤ 2 && len % page == 0 && len != 0 && !rangeOk p kind target len page)),
     (16, len % page != 0 || len == 0 || counterBase < va + len), (24, 2 < size), (25, 4 < kind), (26, !permOk perm)]

/-- R356: MAP. -/
def mapBody (pl : List Byte) (s : State) : Answer × State :=
  let va := get64 pl 0
  let target := get64 pl 8
  let len := get64 pl 16
  let size := get8 pl 24
  let kind := get8 pl 25
  let perm := get8 pl 26
  match mapBad s.fuses.part va target len size kind perm with
  | some f => (ansField f, s)
  | none =>
    if s.tr.leaves.any fun l => l.overlaps va len then (ans stBadState, s)
    else if s.tr.pool < s.tr.leaves.length + len / levelBytes size then (ans stNoResource, s)
    else
      let ls := (rangeLeaves va target len size kind perm).foldl (fun ls l => insertLeaf l ls) s.tr.leaves
      (ansOk [], { s with tr := { s.tr with leaves := ls } })

def execMap (carrel : Nat) (s : State) : Host.Outcome State Fault Refusal := s.after <| takeRing carrel 0x0030 mapBody s

/-- R357: a page that a range covers only in part: cut at the range's start (VA) or at its end (LENGTH). -/
def Leaf.cutStart (l : Leaf) (va len : Nat) : Bool := l.overlaps va len && l.va < va
def Leaf.cutEnd (l : Leaf) (va len : Nat) : Bool := l.overlaps va len && va + len < l.va + levelBytes l.level

/-- R349, R357: the checks of UNMAP and PROTECT on their range. -/
def spanBad (s : State) (va len : Nat) : List (Nat × Bool) :=
  [(0, va % 65536 != 0 || counterBase ≤ va || s.tr.leaves.any fun l => l.cutStart va len),
   (8, len % 65536 != 0 || counterBase < va + len || s.tr.leaves.any fun l => l.cutEnd va len)]

/-- Bytes lo to lo + n - 1 meet va to va + len - 1. -/
def spansTouch (va len lo n : Nat) : Bool := lo < va + len && va < lo + n

/-- R357: an access translated through an entry of the range has not been performed: a read of host memory, a remote request, a granule of a
copy. -/
def State.rangeInUse (s : State) (va len : Nat) : Bool :=
  s.hostReads.any (fun r => spansTouch va len r.va r.len)
    || s.ww.requests.any (fun r => spansTouch va len r.va r.len)
    || s.dma.any fun j => match j with
      | none => false
      | some j => j.route.isSome
          && (spansTouch va len (j.src + (j.granule j.next).1) (j.granule j.next).2 || spansTouch va len (j.dst + (j.granule j.next).1) (j.granule j.next).2)

/-- R357: UNMAP and PROTECT of a range are taken once no access through its old entries is outstanding. -/
def State.rangeHeld (s : State) (pl : List Byte) : Bool :=
  (firstBad (spanBad s (get64 pl 0) (get64 pl 8))).isNone && s.rangeInUse (get64 pl 0) (get64 pl 8)

/-- R357: UNMAP. -/
def unmapBody (pl : List Byte) (s : State) : Answer × State :=
  let va := get64 pl 0
  let len := get64 pl 8
  match firstBad (spanBad s va len) with
  | some f => (ansField f, s)
  | none => (ansOk [], { s with tr := { s.tr with leaves := s.tr.leaves.filter fun l => !l.overlaps va len } })

def execUnmap (carrel : Nat) (s : State) : Host.Outcome State Fault Refusal := s.after <|
  s.unlessHeld carrel 0x0031 s.rangeHeld (takeRing carrel 0x0031 unmapBody s)

/-- R354: an entry word with other permissions. -/
def withPerm (e : Word64) (perm : Nat) : Word64 := (e &&& ~~~0x7C#64) ||| BitVec.ofNat 64 (perm * 4)

/-- R357: PROTECT. -/
def protectBody (pl : List Byte) (s : State) : Answer × State :=
  let va := get64 pl 0
  let len := get64 pl 8
  let perm := get8 pl 16
  match firstBad (spanBad s va len ++ [(16, !permOk perm)]) with
  | some f => (ansField f, s)
  | none =>
    let ls := updIf (fun l => l.overlaps va len) (fun l => { l with entry := withPerm l.entry perm }) s.tr.leaves
    (ansOk [], { s with tr := { s.tr with leaves := ls } })

def execProtect (carrel : Nat) (s : State) : Host.Outcome State Fault Refusal := s.after <|
  s.unlessHeld carrel 0x0032 (fun pl => permOk (get8 pl 16) && s.rangeHeld pl) (takeRing carrel 0x0032 protectBody s)

/-! ## SET_PT_BASE (R353, R354, R358) -/

/-- R354, R356: a leaf entry of a software-built tree, checked as MAP would. -/
def leafOk (p : Part) (level va e : Nat) : Bool :=
  let kind := field e 10 8
  let target := e / 2 ^ 16 * 2 ^ 16
  let size := levelBytes level
  !bitAt e 7 && field e 15 11 == 0 && kind ≤ 4 && permOk (field e 6 2)
    && (kind == 2 || kind == 3 || field e 63 48 == 0)
    && target % size == 0 && va + size ≤ counterBase && pageOk p kind target size

/-- R354: a pointer entry to a table of the next lower level. -/
def pointerOk (p : Part) (level e : Nat) : Bool :=
  let next := field e 47 8 * 256
  let align := if level == 1 then 256 else 4096
  field e 7 2 == 0 && field e 63 48 == 0 && next % align == 0 && next + align ≤ p.fwBase

/-- R353: bytes that one entry of a level maps. -/
def entryBytes (level : Nat) : Nat :=
  match level with
  | 0 => 2 ^ 16
  | 1 => 2 ^ 21
  | 2 => 2 ^ 30
  | 3 => 2 ^ 39
  | _ => 2 ^ 48

/-- R358: the leaves of a software-built table of a level at a near-tier offset, whose first entry maps va; none: it fails a
check. -/
def importTable (p : Part) (m : Store) : Nat → Nat → Nat → Option (List Leaf)
  | 0, base, va =>
    (List.range 32).foldr (fun i acc =>
      match acc with
      | none => none
      | some ls =>
        let e := leNat (m.read (base + 8 * i) 8)
        let a := va + i * entryBytes 0
        if !bitAt e 0 then some ls
        else if bitAt e 1 && leafOk p 0 a e then some (⟨a, 0, BitVec.ofNat 64 e⟩ :: ls)
        else none) (some [])
  | level + 1, base, va =>
    (List.range 512).foldr (fun i acc =>
      match acc with
      | none => none
      | some ls =>
        let e := leNat (m.read (base + 8 * i) 8)
        let a := va + i * entryBytes (level + 1)
        if !bitAt e 0 then some ls
        else if counterBase ≤ a then none
        else if bitAt e 1 then
          if level + 1 ≤ 2 && leafOk p (level + 1) a e then some (⟨a, level + 1, BitVec.ofNat 64 e⟩ :: ls) else none
        else if pointerOk p (level + 1) e then
          match importTable p m level (field e 47 8 * 256) a with
          | none => none
          | some sub => some (sub ++ ls)
        else none) (some [])

/-- R358: some work item or thread is queued, running or suspended. -/
def State.anyWork (s : State) : Bool :=
  s.queues.any (fun q => !q.items.isEmpty) || s.clusters.any (fun c => c.threads.any fun t => t.state != .idle)

/-- R358, R540: SET_PT_BASE. -/
def setPtBaseBody (pl : List Byte) (s : State) : Answer × State :=
  let root := get64 pl 0
  if s.bar0.lock.getLsbD 0 then (ans stLocked, s)
  else if s.anyWork then (ans stBadState, s)
  else if root == 0 then
    (ansOk [], { s with tr := { s.tr with leaves := [] }, fw := { s.fw with ptBaseSet := false } })
  else if root % 4096 != 0 || s.fuses.part.fwBase < root + 4096 then (ansField 0, s)
  else
    match importTable s.fuses.part s.mem.near 4 root 0 with
    | none => (ansField 0, s)
    | some ls =>
      if s.tr.pool < ls.length then (ans stNoResource, s)
      else (ansOk [], { s with tr := { s.tr with leaves := ls }, fw := { s.fw with ptBaseSet := true } })

def execSetPtBase (s : State) : Host.Outcome State Fault Refusal := s.after <| takeRing 0 0x0033 setPtBaseBody s

/-! ## SET_SHELVING_KEY (R382 to R385) -/

/-- R383: a page of the tier is mapped. -/
def State.tierMapped (s : State) (tier : Nat) : Bool := s.tr.leaves.any fun l => field l.entry.toNat 10 8 == tier

/-- R384: a new key: all of the tier but the firmware region is undefined, and reads without ECC error. -/
def State.newKey (s : State) (sp : Space) (key : BitVec 128) (byHost : Bool) : State :=
  let p := s.fuses.part
  let st := s.mem.store sp
  let top := if sp == .near then p.fwBase else p.depBytes
  let st := (st.forget 0 top s.freeCtr).heal fun b => b * 64 < top
  let s := { s.setStore sp st with freeCtr := s.freeCtr + 1 }
  if sp == .near then { s with tr := { s.tr with nearKey := key }, fw := { s.fw with nearKeySet := byHost } }
  else { s with tr := { s.tr with depKey := key }, fw := { s.fw with depKeySet := byHost } }

/-- R383: SET_SHELVING_KEY; a KEY of all zeros takes the entropy source's draw. -/
def shelvingBody (drawn : BitVec 128) (pl : List Byte) (s : State) : Answer × State :=
  let key := getLe pl 0 16
  let tier := get8 pl 16
  if 1 < tier || (tier == 1 && s.fuses.part.d == 0) then (ansField 16, s)
  else if s.bar0.lock.getLsbD 4 then (ans stLocked, s)
  else if s.tierMapped tier then (ans stBadState, s)
  else
    let k := if key == 0 then drawn else BitVec.ofNat 128 key
    (ansOk [], s.newKey (if tier == 0 then .near else .dep) k (key != 0))

def execSetShelvingKey (drawn : BitVec 128) (s : State) : Host.Outcome State Fault Refusal := s.after <|
  takeRing 0 0x0034 (shelvingBody drawn) s

end Sys2Proof.Machine
end

