-- ==== Sys2Proof/Machine/Operands.lean ====
section
/-! DEFINITION. Operand forms: the eleven formats (R127 to R137), magnitudes that mix a rational with a power of two, the
antilog of R163, and the log of rule G (R153). -/

namespace Sys2Proof.Machine

/-! ## Format parameters (R127, R129, R130, R135) -/

def fB1 : Nat := 0
def fT2 : Nat := 1
def fL5 : Nat := 2
def fL8 : Nat := 3
def fL12 : Nat := 4
def fL16 : Nat := 5
def fL32 : Nat := 6
def fI8 : Nat := 7
def fI32 : Nat := 8
def fLF16 : Nat := 9
def fLF32 : Nat := 10

/-- R127: widths in bits. -/
def fmtWidth (f : Nat) : Nat := [1, 2, 5, 8, 12, 16, 32, 8, 32, 16, 32].getD f 0

/-- R127: codes 0xB to 0xF name no format. -/
def fmtOk (f : Nat) : Bool := f ≤ 10

def isL (f : Nat) : Bool := 2 ≤ f && f ≤ 6
def isLF (f : Nat) : Bool := f == fLF16 || f == fLF32
def isInt (f : Nat) : Bool := f == fI8 || f == fI32

/-- R127: formats that block scales are allowed for. -/
def scalable (f : Nat) : Bool := f ≤ 5 || f == fI8

/-- R129: fraction bits of an L format. -/
def lFrac (f : Nat) : Nat := [0, 0, 1, 3, 5, 8, 23].getD f 0

/-- R130: tail codes. -/
def lTails (f : Nat) : Nat := if f == fL5 then 1 else if f == fL8 then 3 else 0

/-- R130: the l of the zero code. -/
def lZero (f : Nat) : Int := -(2 ^ (fmtWidth f - 2) : Int)

/-- R130: the least and the greatest normal l. -/
def lMin (f : Nat) : Int := lZero f + 1 + lTails f
def lMax (f : Nat) : Int := (2 ^ (fmtWidth f - 2) : Int) - (if f == fL16 || f == fL32 then 2 else 1)

/-- R127: formats with an infinity and a NaN. -/
def hasInf (f : Nat) : Bool := f == fL16 || f == fL32 || isLF f

/-- R143: whether SUBN flushes a format. -/
def flushes (subn f : Nat) : Bool :=
  if subn == 0 then false
  else if subn == 1 then isL f || isLF f
  else f == fL12 || f == fL16 || f == fL32 || f == fLF32

/-- R129: exponent and fraction bits of a linear format. -/
def lfExp (f : Nat) : Nat := if f == fLF16 then 5 else 8
def lfFrac (f : Nat) : Nat := if f == fLF16 then 10 else 23
def lfBias (f : Nat) : Int := if f == fLF16 then 15 else 127

/-! ## Rationals and magnitudes -/

/-- 2^e. -/
def pow2 (e : Int) : Rat :=
  match e with
  | .ofNat n => ((2 ^ n : Nat) : Rat)
  | .negSucc n => mkRat 1 (2 ^ (n + 1))

/-- ⌊log2 r⌋ for r > 0. -/
def floorLog2 (r : Rat) : Int :=
  let e := (Nat.log2 r.num.natAbs : Int) - (Nat.log2 r.den : Int)
  if pow2 e ≤ r then e else e - 1

/-- Whether r > 0 is a power of two. -/
def isPow2 (r : Rat) : Bool := r == pow2 (floorLog2 r)

/-- A positive magnitude r · 2^(p / 2^23). -/
structure Mag where
  r : Rat
  p : Int

/-- n further binary digits of log2 y, for y in [1, 2) with 256 fraction bits. -/
def logStep : Nat → Nat → Nat → Nat
  | 0, _, acc => acc
  | n + 1, y, acc =>
    let z := y * y / 2 ^ 256
    if 2 ^ 257 ≤ z then logStep n (z / 2) (2 * acc + 1) else logStep n z (2 * acc)

/-- ⌊2^64 · log2 r⌋ for r > 0. -/
def log2Rat (r : Rat) : Int :=
  let e := floorLog2 r
  if isPow2 r then e * 2 ^ 64
  else
    let m := r / pow2 e
    e * 2 ^ 64 + logStep 64 (m.num.natAbs * 2 ^ 256 / m.den) 0

/-- ⌊2^64 · log2 m⌋, and whether the log is exact there. -/
def Mag.log2 (m : Mag) : Int × Bool := (log2Rat m.r + m.p * 2 ^ 41, isPow2 m.r)

/-- m < n, exactly: no rational is 2^φ for a φ that is no integer. -/
def Mag.lt (m n : Mag) : Bool :=
  if m.p == n.p then m.r < n.r
  else
    let d := n.p - m.p
    if d % 2 ^ 23 == 0 then m.r < n.r * pow2 (d / 2 ^ 23)
    else log2Rat (m.r / n.r) / 2 ^ 41 < d

/-- The magnitude times a positive rational. -/
def Mag.scale (m : Mag) (q : Rat) : Mag := { m with r := m.r * q }

def ratMag (r : Rat) : Mag := ⟨r, 0⟩

/-- ⌊m⌋ below acc + 2^bits, bit by bit. -/
def Mag.floorBits (m : Mag) : Nat → Nat → Nat
  | 0, acc => acc
  | b + 1, acc => m.floorBits b (if m.lt (ratMag ((acc + 2 ^ b : Nat) : Rat)) then acc else acc + 2 ^ b)

/-- ⌊m⌋, saturating at 2^bits - 1. -/
def Mag.floor (m : Mag) (bits : Nat) : Nat :=
  if m.p == 0 then min (m.r.floor.toNat) (2 ^ bits - 1) else m.floorBits bits 0

/-- m equals a whole number n. -/
def Mag.isNat (m : Mag) (n : Nat) : Bool :=
  let k := ratMag (n : Rat)
  !m.lt k && !k.lt m

/-! ## The antilog table (R163, R164, R187) -/

/-- ⌊ln 2 · 2^128⌋. -/
def ln2Fix : Nat := 0xB17217F7D1CF79ABC9E3B39803F2F6AF

/-- ⌊2^(i/256) · 2^110⌋. -/
def rootFix (i : Nat) : Nat := rootBits 256 (2 ^ (i + 256 * 110)) 111 0

/-- a / 2^n rounded to nearest, halves up (R164's coefficients meet no half but exact ones). -/
def nearest (a n : Nat) : Nat := (a + 2 ^ (n - 1)) / 2 ^ n

/-- R164: the coefficients of the start-up table. -/
def startupEntry (i : Nat) : Nat × Nat × Nat × Nat :=
  let c := rootFix i
  let l := ln2Fix
  (nearest c 71, nearest (c * l) (238 - 35), nearest (c * l * l) (366 + 1 - 28),
    nearest (c * l * l * l / 6) (494 - 24))

/-- R164: an entry of a bank; a bank with no list holds the start-up contents. -/
def antilogEntry (bank : Option (List Nat)) (i : Nat) : Nat × Nat × Nat × Nat :=
  match bank with
  | none => startupEntry i
  | some l =>
    let e := l.getD i 0
    (field e 39 0, field e 75 40, field e 103 76, field e 127 104)

/-- n / 2^k rounded to nearest, ties to even. -/
def rneShift (n k : Nat) : Nat :=
  let q := n / 2 ^ k
  let r := n % 2 ^ k
  if 2 * r < 2 ^ k then q else if 2 ^ k < 2 * r then q + 1 else q + q % 2

/-- R163 steps 1 to 4: the exponent and the significand, in units of 2^-30. -/
def antilog (bank : Option (List Nat)) (p : Int) : Int × Nat :=
  let e := p / 2 ^ 23
  let phi := (p % 2 ^ 23).toNat
  let c := antilogEntry bank (phi / 2 ^ 15)
  let r := phi % 2 ^ 15 * 2 ^ 25
  let v3 := c.2.2.2 * 2 ^ 24
  let v2 := c.2.2.1 * 2 ^ 20 + r * v3 / 2 ^ 48
  let v1 := c.2.1 * 2 ^ 13 + r * v2 / 2 ^ 48
  let v := c.1 * 2 ^ 9 + r * v1 / 2 ^ 48
  let s := rneShift v 18
  if 2 ^ 31 ≤ s then (e + 1, 2 ^ 30) else (e, s)

/-- R163 step 5: the magnitude of a log with its tail factor and scale. -/
def antilogRat (bank : Option (List Nat)) (p : Int) (j : Nat) (sc : Int) : Rat :=
  let a := antilog bank p
  ((a.2 * j : Nat) : Rat) * pow2 (a.1 + sc - 30)

/-- 2^(z / 2^64) in units of 2^-128, for 0 ≤ z < 2^64, by its series. -/
def exp2Fix (z : Nat) : Nat :=
  let x := z * ln2Fix / 2 ^ 64
  ((List.range 40).foldl (fun (acc : Nat × Nat) k => (acc.1 + acc.2, acc.2 * x / 2 ^ 128 / (k + 1))) (0, 2 ^ 128)).1

/-! ## Numbers -/

/-- The exact magnitude of a nonzero finite number. -/
def Num.mag : Num → Option Mag
  | .log _ p j sc => some ⟨(j : Rat) * pow2 sc, p⟩
  | .lin _ m => some ⟨m, 0⟩
  | .nan => none
  | .inf _ => none
  | .zero _ => none

def Num.neg? : Num → Bool
  | .nan => false
  | .inf n => n
  | .zero n => n
  | .log n _ _ _ => n
  | .lin n _ => n

def Num.isNan : Num → Bool
  | .nan => true
  | _ => false

def Num.isZero : Num → Bool
  | .zero _ => true
  | _ => false

def Num.isInf : Num → Bool
  | .inf _ => true
  | _ => false

/-- The number with the sign changed. -/
def Num.negate : Num → Num
  | .nan => .nan
  | .inf n => .inf !n
  | .zero n => .zero !n
  | .log n p j sc => .log (!n) p j sc
  | .lin n m => .lin (!n) m

def Num.withSign (x : Num) (neg : Bool) : Num := if x.neg? == neg then x else x.negate

/-- A rational as a number: a zero is +0 (R149). -/
def numOfRat (q : Rat) : Num :=
  if q == 0 then .zero false else if q < 0 then .lin true (-q) else .lin false q

/-- The value of a number in linear form: a log goes through the antilog (rule A, R151); specials have none. -/
def Num.rat (bank : Option (List Nat)) : Num → Option Rat
  | .nan => none
  | .inf _ => none
  | .zero _ => some 0
  | .log n p j sc => some (if n then -(antilogRat bank p j sc) else antilogRat bank p j sc)
  | .lin n m => some (if n then -m else m)

/-- The exact comparison of magnitudes: finite nonzero, zero below, infinity above. -/
def Num.magLt (a b : Num) : Bool :=
  match a.mag, b.mag with
  | some m, some n => m.lt n
  | none, some _ => a.isZero
  | some _, none => b.isInf
  | none, none => a.isZero && b.isInf

/-! ## Exact values, to 2^-690 of themselves -/

/-- Σ 1 / ((2n + 1) k^(2n+1)), in the units of t. -/
def atanhInv (k : Nat) : Nat → Nat → Nat → Nat
  | 0, _, _ => 0
  | fuel + 1, n, t => if t == 0 then 0 else t / (2 * n + 1) + atanhInv k fuel (n + 1) (t / (k * k))

/-- ⌊ln 2 · 2^720⌋. -/
def ln2Wide : Nat :=
  (18 * atanhInv 26 100 0 (2 ^ 740 / 26) + 8 * atanhInv 8749 40 0 (2 ^ 740 / 8749) - 2 * atanhInv 4801 40 0 (2 ^ 740 / 4801)) / 2 ^ 20

/-- 2^(φ / 2^23) in units of 2^-700, for 0 ≤ φ < 2^23, by its series. -/
def exp2Wide (phi : Nat) : Nat :=
  let x := phi * ln2Wide / 2 ^ 43
  ((List.range 160).foldl (fun (acc : Nat × Nat) k => (acc.1 + acc.2, acc.2 * x / 2 ^ 700 / (k + 1))) (0, 2 ^ 700)).1

/-- r · 2^(p / 2^23). -/
def wideRat (r : Rat) (p : Int) : Rat := r * ((exp2Wide (p % 2 ^ 23).toNat : Nat) : Rat) * pow2 (p / 2 ^ 23 - 700)

/-- The value of a decoded operand (R293), a log's to 2^-690 of itself. -/
def realRat (x : Num) : Rat :=
  match x with
  | .log n p j sc =>
    let m := wideRat ((j : Rat) * pow2 sc) p
    if n then -m else m
  | .lin n m => if n then -m else m
  | _ => 0

/-- R222: a < b by value, -0 and +0 equal; neither is NaN. -/
def Num.lt (a b : Num) : Bool :=
  if a.isZero && b.isZero then false
  else if a.isZero then !b.neg?
  else if b.isZero then a.neg?
  else if a.neg? != b.neg? then a.neg?
  else if a.neg? then b.magLt a
  else a.magLt b

/-! ## Decoding (R128 to R134, R144) -/

/-- R128: element e of a stream's bytes. -/
def elementOf (bs : List Byte) (f e : Nat) : Nat :=
  let w := fmtWidth f
  let lo := w * e
  (leNat ((bs.drop (lo / 8)).take ((lo % 8 + w + 7) / 8)) >>> (lo % 8)) % 2 ^ w

/-- A code of an L format: decoded value, and whether it was read as zero (R144). -/
def decodeL (f code : Nat) (sc : Int) (subn : Nat) : Num × Bool :=
  let w := fmtWidth f
  let neg := bitAt code (w - 1)
  let l := signedOf (w - 1) code
  let wide := f == fL16 || f == fL32
  if l == lZero f then (if wide then (if neg then .nan else .zero false) else .zero neg, false)
  else if wide && lMax f < l then (.inf neg, false)
  else if l < lMin f then
    if flushes subn f then (.zero neg, true)
    else (.log neg (if f == fL5 then -4 * 2 ^ 23 else -19 * 2 ^ 22) (l - lZero f).toNat sc, false)
  else (.log neg (l * 2 ^ (23 - lFrac f)) 1 sc, false)

/-- A code of a linear format. -/
def decodeLF (f code subn : Nat) : Num × Bool :=
  let fr := lfFrac f
  let neg := bitAt code (fmtWidth f - 1)
  let e := code / 2 ^ fr % 2 ^ lfExp f
  let m := code % 2 ^ fr
  if e == 2 ^ lfExp f - 1 then (if m == 0 then .inf neg else .nan, false)
  else if e == 0 then
    if m == 0 then (.zero neg, false)
    else if flushes subn f then (.zero neg, true)
    else (.lin neg ((m : Rat) * pow2 (1 - lfBias f - fr)), false)
  else (.lin neg (((m + 2 ^ fr : Nat) : Rat) * pow2 ((e : Int) - lfBias f - fr)), false)

/-- R129 to R134: decodes a code under a block scale and SUBN; and whether R144 read it as zero. -/
def decodeNum (f code : Nat) (sc : Int) (subn : Nat) : Num × Bool :=
  if f == fB1 then (.lin (code % 2 == 1) (pow2 sc), false)
  else if f == fT2 then
    (if code % 4 == 0 then .zero false else if code % 4 == 3 then .zero true else .lin (code % 4 == 2) (pow2 sc), false)
  else if isL f then decodeL f code sc subn
  else if f == fI8 then (numOfRat (((signedOf 8 code : Int) : Rat) * pow2 sc), false)
  else if f == fI32 then (numOfRat ((signedOf 32 code : Int) : Rat), false)
  else decodeLF f code subn

/-- An LF32 word as a number, subnormals kept. -/
def lf32 (w : Nat) : Num := (decodeNum fLF32 w 0 0).1

/-- R136: a block scale byte. -/
def scaleOf (b : Nat) : Int := signedOf 8 b

end Sys2Proof.Machine
end

