-- ==== Sys2Proof/Machine/Flags.lean ====
section
/-! DEFINITION. Rounding and encoding into the eleven formats (R138 to R154), and the flags and counters they raise
(R145 to R148, R155, R156). -/

namespace Sys2Proof.Machine

/-! ## Events -/

/-- R156, R190: 32-bit counters that stop. -/
def countUp (c : Nat) : Nat := min (c + 1) 0xFFFFFFFF

def orFlag (c : Counts) (b : Nat) : Counts := { c with aflags := c.aflags ||| BitVec.ofNat 16 b }

/-- R155, R156: an event in an operation's flags and counters. -/
def Counts.add (c : Counts) (e : Ev) : Counts :=
  match e with
  | .none => c
  | .invalid => orFlag { c with invalid := countUp c.invalid } 1
  | .overflow => orFlag { c with sat := countUp c.sat } 2
  | .flushed => orFlag { c with flush := countUp c.flush } 4
  | .saturated => orFlag { c with sat := countUp c.sat } 8

/-- R156: one element that raised several: each flag is set, and each counter counts the element at most once. -/
def Counts.element (c : Counts) (es : List Ev) : Counts :=
  let c := if es.contains .invalid then c.add .invalid else c
  let c := if es.contains .flushed then c.add .flushed else c
  if es.contains .saturated then
    (if es.contains .overflow then orFlag (c.add .saturated) 2 else c.add .saturated)
  else if es.contains .overflow then c.add .overflow
  else c

def Counts.addAll (c : Counts) (es : List Ev) : Counts := es.foldl Counts.add c

/-! ## Rounding modes (R139) -/

def rne : Nat := 0
def rtz : Nat := 1
def stoch : Nat := 2

/-! ## Linear targets (R134, R140, R141, R147) -/

/-- A rational magnitude rounded to a multiple of a quantum: the count. Ties go to the even count. -/
def roundCount (n : Rat) (rnd u : Nat) : Nat :=
  let k := n.floor.toNat
  let fr := n - (k : Rat)
  if fr == 0 || rnd == rtz then k
  else if rnd == stoch then (if (u : Rat) < ((fr * 65536).floor : Int) then k + 1 else k)
  else if fr < mkRat 1 2 then k
  else if mkRat 1 2 < fr then k + 1
  else k + k % 2

/-- R135: codes of an LF format. -/
def lfInf (f : Nat) : Nat := (2 ^ lfExp f - 1) * 2 ^ lfFrac f
def lfMaxCode (f : Nat) : Nat := lfInf f - 1
def lfNan (f : Nat) : Nat := lfInf f + 2 ^ (lfFrac f - 1)
def signBit (f : Nat) (neg : Bool) : Nat := if neg then 2 ^ (fmtWidth f - 1) else 0

/-- The largest finite magnitude of an LF format. -/
def lfMaxRat (f : Nat) : Rat := ((2 ^ (lfFrac f + 1) - 1 : Nat) : Rat) * pow2 (lfBias f - lfFrac f)

/-- R134, R140 to R147: a positive rational in an LF format: the code without its sign, and what it raises. -/
def encodeLFMag (f : Nat) (m : Rat) (rnd subn u : Nat) : Nat × Ev :=
  let fr := lfFrac f
  let emin := 1 - lfBias f
  let e := floorLog2 m
  if e < emin && flushes subn f then (0, .flushed)
  else
    let q := max e emin - fr
    let mode := if rnd == stoch && lfMaxRat f < m then rne else rnd
    let n := roundCount (m / pow2 q) mode u
    if n == 0 then (0, .flushed)
    else
      -- n counts quanta: below 2^fr subnormal; 2^fr to 2^(fr+1) - 1 normal; 2^(fr+1) carries into the next binade
      let code := if n < 2 ^ fr then n else ((q + fr + lfBias f).toNat - 1) * 2 ^ fr + n
      if lfMaxCode f < code then (if rnd == rtz then lfMaxCode f else lfInf f, .overflow) else (code, .none)

/-! ## Integer targets (R133, rule Q of R151) -/

/-- A magnitude rounded to a whole number, saturating at 2^34. -/
def roundInt (m : Mag) (rnd u : Nat) : Nat :=
  let k := m.floor 34
  if rnd == rtz || m.isNat k then k
  else if rnd == stoch then
    let f16 := (m.scale 65536).floor 51 - k * 65536
    if u < f16 then k + 1 else k
  else
    let half := ratMag ((k : Rat) + mkRat 1 2)
    if m.lt half then k else if half.lt m then k + 1 else k + k % 2

/-- Rule Q: a code of I8 or I32. DEDUCED (log 62): a result outside the range of I32 raises OVERFLOW, by R147 and R151, in the vector engine
too; SATURATED (R133) is the accumulator's. -/
def encodeInt (f : Nat) (neg : Bool) (m : Mag) (rnd u : Nat) : Nat × Ev :=
  let w := fmtWidth f
  let top := ratMag (if neg then 2 ^ (w - 1) else 2 ^ (w - 1) - 1)
  -- R142
  let n := roundInt m (if rnd == stoch && top.lt m then rne else rnd) u
  if neg then
    if 2 ^ (w - 1) < n then (2 ^ (w - 1), .overflow) else (unsignedOf w (-(n : Int)), .none)
  else if 2 ^ (w - 1) - 1 < n then (2 ^ (w - 1) - 1, .overflow) else (n, .none)

/-! ## L targets (R140 to R147, R153) -/

/-- The code of an L format from sign and l. -/
def lCode (f : Nat) (neg : Bool) (l : Int) : Nat := signBit f neg + unsignedOf (fmtWidth f - 1) l

/-- R130, R135, R146: the zero code of a sign; L16 and L32 have one. -/
def lZeroCode (f : Nat) (neg : Bool) : Nat := lCode f (neg && !(f == fL16 || f == fL32)) (lZero f)

def lInfCode (f : Nat) (neg : Bool) : Nat := lCode f neg (lMax f + 1)

/-- R141: P16 in the log domain, from the discarded log fraction z in units of 2^-64 (0 < z < 2^(64 - fr)). -/
def logP16 (fr z : Nat) (m : Rat) : Nat :=
  let p := (exp2Fix z - 2 ^ 128) * 65536 / (exp2Fix (2 ^ (64 - fr)) - 2 ^ 128)
  let d := Config.stochSlack fr m.num m.den % 3
  if d == 0 then p - 1 else if d == 1 then p else min (p + 1) 65536

/-- R140, R141, R153: log2 of a magnitude rounded to a multiple of 2^-f: the multiple. margin: rule G, whose result within 2^-26 of a
boundary is either neighbour. -/
def roundLog (f : Nat) (m : Mag) (rnd u : Nat) (margin : Bool) : Int :=
  let fr := lFrac f
  let lg := m.log2
  let unit := 2 ^ (64 - fr)
  let q := lg.1 / (unit : Int)
  let rem := (lg.1 % (unit : Int)).toNat
  let near := 2 ^ 38
  if lg.2 && rem == 0 then q
  else if rnd == rtz then
    if margin && !lg.2 && rem ≤ near then (if Config.logNeighbour fr m.r.num m.r.den then q else q - 1)
    else if margin && !lg.2 && unit - rem ≤ near then (if Config.logNeighbour fr m.r.num m.r.den then q + 1 else q)
    else q
  else if rnd == stoch then (if u < logP16 fr rem m.r then q + 1 else q)
  else
    let half := unit / 2
    if margin && !lg.2 && (if rem < half then half - rem else rem - half) ≤ near then
      (if Config.logNeighbour fr m.r.num m.r.den then q + 1 else q)
    else if rem < half then q
    else if half < rem || !lg.2 then q + 1
    else q + q % 2

/-- R131, R140, R141: a magnitude below mmin rounded among zero, the tails and mmin: how many steps of mmin / (T + 1). -/
def roundTail (f : Nat) (m : Mag) (rnd u : Nat) : Nat :=
  let t := lTails f + 1
  -- m in units of a step: m · (T + 1) / mmin
  let n : Mag := ⟨m.r * (t : Rat), m.p - lMin f * 2 ^ (23 - lFrac f)⟩
  roundInt n rnd u

/-- R140 to R147: a nonzero finite magnitude, block scale removed, in an L format. -/
def encodeLMag (f : Nat) (neg : Bool) (m : Mag) (rnd subn u : Nat) (margin : Bool) : Nat × Ev :=
  let mmin : Mag := ⟨1, lMin f * 2 ^ (23 - lFrac f)⟩
  if m.lt mmin then
    if flushes subn f then (lZeroCode f neg, .flushed)
    else
      let k := roundTail f m rnd u
      if k == 0 then (lZeroCode f neg, .flushed) else (lCode f neg (lZero f + k), .none)
  else
    let top : Mag := ⟨1, lMax f * 2 ^ (23 - lFrac f)⟩
    let mode := if rnd == stoch && top.lt m then rne else rnd
    let l := roundLog f m mode u margin
    if l < lMin f then (lCode f neg (lMin f), .none)
    else if lMax f < l then
      (if hasInf f && rnd != rtz then lInfCode f neg else lCode f neg (lMax f), .overflow)
    else (lCode f neg l, .none)

/-! ## Encoding (R146, R150, R151) -/

/-- R146: the codes of NaN and of the infinities. -/
def encodeNan (f : Nat) : Nat × Ev :=
  if isLF f then (lfNan f, .none)
  else if f == fL16 || f == fL32 then (lCode f true (lZero f), .none)
  else if isL f then (lZeroCode f false, .invalid)
  else (0, .invalid)

def encodeInf (f : Nat) (neg : Bool) : Nat × Ev :=
  if isLF f then (signBit f neg + lfInf f, .none)
  else if f == fL16 || f == fL32 then (lInfCode f neg, .none)
  else if isL f then (lCode f neg (lMax f), .overflow)
  else if isInt f then (if neg then 2 ^ (fmtWidth f - 1) else 2 ^ (fmtWidth f - 1) - 1, .overflow)
  else if f == fT2 then (if neg then 2 else 1, .none)
  else (bit neg, .none)

def encodeZero (f : Nat) (neg : Bool) : Nat :=
  if isLF f then signBit f neg
  else if isL f then lZeroCode f neg
  else if isInt f then 0
  else if f == fT2 then (if neg then 3 else 0)
  else bit neg

/-- Rule T of R151: whether a magnitude becomes ±1. -/
def ternaryOne (m : Mag) (rnd u : Nat) : Bool :=
  if rnd == rtz then !m.lt (ratMag 1)
  else if rnd == stoch then u < min ((m.scale 65536).floor 40) 65536
  else (ratMag (mkRat 1 2)).lt m

/-- R150 steps 3 and 4, R272 step 3: a number in format f under target scale sc, RND, SUBN and draw u. bank: the antilog bank of rule A,
through which a log goes into a linear or integer format. margin: a linear or integer source of an L target is under rule G (R153). -/
def encodeNumIn (margin : Bool) (bank : Option (List Nat)) (f : Nat) (sc : Int) (rnd subn u : Nat) (x : Num) : Nat × Ev :=
  match x with
  | .nan => encodeNan f
  | .inf neg => encodeInf f neg
  | .zero neg => (encodeZero f neg, .none)
  | .log neg p j s =>
    let m : Mag := ⟨(j : Rat) * pow2 (s - sc), p⟩
    if f == fB1 then (bit neg, .none)
    else if f == fT2 then (if ternaryOne m rnd u then (if neg then 2 else 1) else if neg then 3 else 0, .none)
    else if isL f then encodeLMag f neg m rnd subn u false
    else if isInt f then encodeInt f neg (ratMag (antilogRat bank p j (s - sc))) rnd u
    else
      let e := encodeLFMag f (antilogRat bank p j (s - sc)) rnd subn u
      (signBit f neg + e.1, e.2)
  | .lin neg q =>
    let m : Mag := ⟨q * pow2 (-sc), 0⟩
    if f == fB1 then (bit neg, .none)
    else if f == fT2 then (if ternaryOne m rnd u then (if neg then 2 else 1) else if neg then 3 else 0, .none)
    else if isL f then encodeLMag f neg m rnd subn u margin
    else if isInt f then encodeInt f neg m rnd u
    else
      let e := encodeLFMag f m.r rnd subn u
      (signBit f neg + e.1, e.2)

def encodeNum (bank : Option (List Nat)) (f : Nat) (sc : Int) (rnd subn u : Nat) (x : Num) : Nat × Ev :=
  encodeNumIn true bank f sc rnd subn u x

/-- R145, R156: one element's event, when its operand was read as zero. -/
def withRead (readFlush : Bool) (f : Nat) (e : Ev) : Ev :=
  if e != .none then e
  else if readFlush && (isL f || isLF f) then .flushed
  else .none

/-- R150: one element converted. -/
def convert (bank : Option (List Nat)) (src code : Nat) (ssc : Int) (dst : Nat) (dsc : Int) (rnd subn u : Nat) : Nat × Ev :=
  let d := decodeNum src code ssc subn
  let e := encodeNum bank dst dsc rnd subn u d.1
  (e.1, withRead d.2 dst e.2)

/-! ## Linear arithmetic (R148, R149, R157) -/

/-- R163: a number in linear form, a log through the antilog. -/
def Num.linear (bank : Option (List Nat)) (x : Num) : Num :=
  match x with
  | .log n p j sc => .lin n (antilogRat bank p j sc)
  | _ => x

/-- The exact sum of two numbers in linear form, and whether it is invalid (R148). -/
def addNum (a b : Num) : Num × Bool :=
  if a.isNan || b.isNan then (.nan, false)
  else if a.isInf && b.isInf && a.neg? != b.neg? then (.nan, true)
  else if a.isInf then (a, false)
  else if b.isInf then (b, false)
  else if a.isZero && b.isZero then (.zero (a.neg? && b.neg?), false)
  else
    match a.rat none, b.rat none with
    | some x, some y => (numOfRat (x + y), false)
    | _, _ => (.nan, false)

/-- The exact product of two numbers in linear form, and whether it is invalid (R148). -/
def mulNum (a b : Num) : Num × Bool :=
  let neg := a.neg? != b.neg?
  if a.isNan || b.isNan then (.nan, false)
  else if (a.isInf && b.isZero) || (a.isZero && b.isInf) then (.nan, true)
  else if a.isInf || b.isInf then (.inf neg, false)
  else if a.isZero || b.isZero then (.zero neg, false)
  else
    match a.rat none, b.rat none with
    | some x, some y => ((numOfRat (x * y)).withSign neg, false)
    | _, _ => (.nan, false)

/-- An LF32 word, rounded once to nearest. -/
def toLf32 (x : Num) : Nat := (encodeNum none fLF32 0 rne 0 0 x).1

/-! ## Block scales of a target (R138, R562) -/

def clampScale (s : Int) : Int := max (-128) (min 127 s)

/-- R138: MAXF of a scaled format, as a magnitude. -/
def maxF (f : Nat) : Mag :=
  if f == fI8 then ratMag 127 else if isL f then ⟨1, lMax f * 2 ^ (23 - lFrac f)⟩ else ratMag 1

/-- R138, MAX: the least σ with m · 2^-σ ≤ MAXF. -/
def scaleFor (f : Nat) (m : Mag) : Int :=
  let mx := maxF f
  let a := (m.log2.1 - mx.log2.1) / 2 ^ 64
  -- a is within one of the answer
  let ok (s : Int) : Bool := !mx.lt (m.scale (pow2 (-s)))
  clampScale (if ok (a - 1) then a - 1 else if ok a then a else if ok (a + 1) then a + 1 else a + 2)

/-- The greatest magnitude of finite nonzero numbers. -/
def maxMag (xs : List Num) : Option Mag :=
  xs.foldl (fun acc x =>
    match x.mag, acc with
    | none, _ => acc
    | some m, none => some m
    | some m, some n => if n.lt m then some m else some n) none

/-- R138, R562: the scale that SCALE_MODE 2 (MAX) or 3 (MEAN) chooses for a block. The mean is of the values exactly, not of their antilogs. -/
def chooseScale (mode f : Nat) (xs : List Num) : Int :=
  let xs := xs.filter fun x => !x.isNan
  if xs.any Num.isInf then 127
  else
    match maxMag xs with
    | none => 0
    | some m =>
      if mode == 2 then scaleFor f m
      else
        let sum := (xs.map fun x => (let q := realRat x; if q < 0 then -q else q)).foldl (· + ·) 0
        let mean := encodeLFMag fLF32 (sum / (xs.length : Rat)) rne 0 0
        match lf32 mean.1 with
        | .lin _ q =>
          -- log2 of the rounded mean, to the nearest integer, ties to even
          let l := floorLog2 q
          let r := q / pow2 l
          let sq := r * r
          clampScale (if sq < 2 then l else if 2 < sq then l + 1 else l + l % 2)
        | .inf _ => 127
        | _ => -128

end Sys2Proof.Machine
end

