-- ==== Sys2Proof/Machine/Products.lean ====
section
/-! DEFINITION. What the matrix engine computes, on values: products and their groups (R158 to R178, R192), Flutter streams
(R181 to R183), accumulation (R195 to R202), work units and streaming times (R172 to R176, R246), extremes (R222). -/

namespace Sys2Proof.Machine

/-! ## Paths (R158, R159) -/

inductive Path | log | serial | binary | stochastic | conventional
  deriving DecidableEq, Repr

/-- R158: core cycles per 16 positions that a log-path format sets. -/
def logCycles (f : Nat) : Option Nat :=
  if f == fL32 then some 32
  else if f == fL16 || f == fL12 || f == fLF16 then some 16
  else if f == fL8 then some 8
  else if f == fL5 then some 4
  else none

def narrow (f : Nat) : Bool := f == fB1 || f == fT2

/-- R158: the path of a pair and its core cycles per 16 positions. -/
def pathOf (a b : Nat) (stochBin : Bool) : Option (Path × Nat) :=
  if stochBin then (if (a == fL8 || a == fLF16) && b == fB1 then some (.stochastic, 1) else none)
  else if a == fI8 then
    if b == fB1 then some (.serial, 1) else if b == fT2 then some (.serial, 2) else if b == fI8 then some (.serial, 8) else none
  else if narrow a && narrow b then some (.binary, if a == fB1 && b == fB1 then 1 else 2)
  else
    match logCycles a, logCycles b with
    | some x, some y => some (.log, max x y)
    | some x, none => if narrow b then some (.log, x) else none
    | none, some y => if narrow a then some (.log, y) else none
    | none, none => none

/-! ## The log path (R160 to R168, R192) -/

/-- R161: an operand in internal log form, its scale held apart; and whether it was read as zero. -/
def logOperand (f code : Nat) (sc : Int) (subn : Nat) : Num × Bool :=
  let d := decodeNum f code 0 subn
  match d.1 with
  | .lin n m => (.log n (if f == fLF16 then roundLog fL32 ⟨m, 0⟩ rne 0 true else 0) 1 sc, d.2)
  | .log n p j _ => (.log n p j sc, d.2)
  | x => (x, d.2)

/-- R167: the least product exponent. -/
def expMin (subn : Nat) : Int := if subn == 0 then -149 else -126

/-- R167, R168: a product or chunk sum of a sign and a magnitude, after the range check. -/
def rangeCheck (satmode subn : Nat) (neg : Bool) (m : Rat) : Num × Ev :=
  let e := floorLog2 m
  if 127 < e then (if satmode == 1 then .lin neg (pow2 128 - pow2 104) else .inf neg, .overflow)
  else if e < expMin subn then (.zero neg, .flushed)
  else (.lin neg m, .none)

/-- R162, R163: the product of two operands in log form, in linear form. -/
def product (bank : Option (List Nat)) (satmode subn : Nat) (a b : Num) : Num × Ev :=
  let neg := a.neg? != b.neg?
  if a.isNan || b.isNan then (.nan, .none)
  else if (a.isInf && b.isZero) || (a.isZero && b.isInf) then (.nan, .invalid)
  else if a.isInf || b.isInf then (.inf neg, .none)
  else
    match a, b with
    | .log _ p j s, .log _ q k t => rangeCheck satmode subn neg (antilogRat bank (p + q) (j * k) (s + t))
    | _, _ => (.zero neg, .none)

/-- R165: the count of units 2^(emax - 44) that a product enters the tree as. -/
def alignedCount (emax : Int) (x : Num) : Int :=
  match x with
  | .lin neg m =>
    let n : Int := (m / pow2 (emax - 44)).floor
    if neg then -n else n
  | _ => 0

/-- One level of the tree of R192. -/
def treeLevel : List Int → List Int
  | a :: b :: rest => (a + b) :: treeLevel rest
  | [a] => [a]
  | [] => []

/-- R192: the tree over 16 counts or fewer, four levels. -/
def tree (v : List Int) : Int := (treeLevel (treeLevel (treeLevel (treeLevel v)))).headD 0

/-- R165, R166, R192: the sum of a group's products. -/
def groupSum (ps : List Num) : Num × Ev :=
  if ps.any Num.isNan then (.nan, .none)
  else
    let pos := ps.any fun x => x == .inf false
    let neg := ps.any fun x => x == .inf true
    if pos && neg then (.nan, .invalid)
    else if pos || neg then (.inf neg, .none)
    else
      let es := ps.filterMap fun x => match x with | .lin _ m => some (floorLog2 m) | _ => none
      match es.max? with
      | none => (.zero false, .none)
      | some emax => (numOfRat ((tree (ps.map (alignedCount emax)) : Rat) * pow2 (emax - 44)), .none)

/-! ## Chunk sums (R169 to R171, R177) -/

/-- R169: the whole value of a B1, T2 or I8 element. -/
def wholeValue (f code : Nat) : Int :=
  if f == fB1 then (if code % 2 == 1 then -1 else 1)
  else if f == fT2 then (if code % 4 == 1 then 1 else if code % 4 == 2 then -1 else 0)
  else signedOf 8 code

def chunkSum (as_ bs : List Int) : Int := (List.zipWith (· * ·) as_ bs).foldl (· + ·) 0

/-- R168, R171: a chunk sum under its scales, after the range check. -/
def chunkNum (satmode subn : Nat) (c sc : Int) : Num × Ev :=
  if c == 0 then (.zero false, .none) else rangeCheck satmode subn (c < 0) ((c.natAbs : Rat) * pow2 sc)

/-! ## The binariser (R178) -/

/-- R178: the B1 bit of an element under BIN_SCALE and a draw. -/
def binarise (bank : Option (List Nat)) (beta : Int) (u : Nat) (x : Num) : Nat × Ev :=
  match x with
  | .nan => (0, .invalid)
  | .inf neg => (bit neg, .none)
  | x =>
    let q := ((x.rat bank).getD 0) * pow2 (-beta)
    let p := max 0 (min 1 ((q + 1) / 2))
    (if (u : Int) < (p * 65536).floor then 0 else 1, .none)

/-! ## Flutter streams (R180 to R183) -/

/-- R181: a default stream identifier. -/
def streamId (unit cdie cluster lane tile : Nat) : Nat :=
  unit % 4 * 2 ^ 30 + cdie % 8 * 2 ^ 27 + cluster % 16 * 2 ^ 23 + lane % 2 ^ 14 * 2 ^ 9 + tile % 32 * 2 ^ 4

/-- SEED, CTR_BASE, STREAM_MODE, STREAM_ARG of a descriptor, and the table as loaded. -/
structure Streams where
  seed  : Nat
  base  : Nat
  mode  : Nat
  arg   : Nat
  table : List Nat

/-- R183: the identifier in force for a default identifier, its word of the table and its tile slot. -/
def Streams.ident (t : Streams) (default word tile : Nat) : Nat :=
  if t.mode == 1 then Nat.xor default (t.arg % 2 ^ 32)
  else if t.mode == 2 then
    let w := t.table.getD word 0
    w - field w 8 4 * 16 + tile % 32 * 16
  else default

/-- R180: a draw of a stream. -/
def Streams.draw (t : Streams) (default word tile d : Nat) : Nat := Machine.draw t.seed t.base (t.ident default word tile) d

/-- R183: entries equal, outside bits [8:4], to one before them. -/
def aliases : List Nat → List Nat → Nat
  | _, [] => 0
  | seen, w :: ws =>
    let k := w - field w 8 4 * 16
    if seen.contains k then aliases seen ws + 1 else aliases (k :: seen) ws

/-! ## Accumulation (R195 to R202) -/

/-- What a cell holds for one output: HI or the single word, LO, the saturation bit. -/
structure AccValue where
  hi  : Nat
  lo  : Nat
  sat : Bool
  deriving DecidableEq, Repr

/-- R196, R200, R201: one rounding of an exact sum to LF32; a zero is +0. -/
def roundAcc (s : Rat) (rnd subn u : Nat) : Nat × Ev :=
  if s == 0 then (0, .none)
  else
    let e := encodeLFMag fLF32 (if s < 0 then -s else s) rnd subn u
    (if e.1 == 0 then 0 else signBit fLF32 (s < 0) + e.1, e.2)

/-- R221: the value of an accumulator word, unrounded: ACC_FMT 0 LF32, 1 pair, 2 I32. -/
def AccValue.num (v : AccValue) (fmt : Nat) : Num :=
  if fmt == 2 then numOfRat ((signedOf 32 v.hi : Int) : Rat)
  else
    let h := lf32 v.hi
    if fmt == 0 then h
    else
      match h.rat none, (lf32 v.lo).rat none with
      | some x, some y => numOfRat (x + y)
      | none, _ => h
      | _, none => lf32 v.lo

/-- R200: two values of which one is special. -/
def specialSum (a g : Num) : Option (Num × Ev) :=
  if a.isNan || g.isNan then some (.nan, .none)
  else if a.isInf && g.isInf && a.neg? != g.neg? then some (.nan, .invalid)
  else if a.isInf then some (a, .none)
  else if g.isInf then some (g, .none)
  else none

/-- R196 to R201: adds a group sum to what a cell holds. -/
def accumulate (fmt rnd subn u : Nat) (v : AccValue) (g : Num) : AccValue × Ev :=
  if fmt == 2 then
    if v.sat then (v, .none)
    else
      let s := signedOf 32 v.hi + ((g.rat none).getD 0).floor
      if s < -(2 ^ 31) then (⟨0x80000000, 0, true⟩, .saturated)
      else if (2 ^ 31 : Int) ≤ s then (⟨0x7FFFFFFF, 0, true⟩, .saturated)
      else (⟨unsignedOf 32 s, 0, false⟩, .none)
  else
    let a := v.num fmt
    match specialSum a g with
    | some (x, e) => (⟨toLf32 x, 0, false⟩, e)
    | none =>
      let s := (a.rat none).getD 0 + (g.rat none).getD 0
      if fmt == 0 then
        let r := roundAcc s rnd subn u
        (⟨r.1, 0, false⟩, r.2)
      else
        let h := roundAcc s rne subn 0
        match (lf32 h.1).rat none with
        | none => (⟨h.1, 0, false⟩, h.2)
        | some x => (⟨h.1, (roundAcc (s - x) rnd subn u).1, false⟩, h.2)

/-! ## Tiles (R203) -/

/-- The cells and words of a tile. -/
structure Region where
  row   : Nat
  col   : Nat
  rows  : Nat
  cols  : Nat
  words : List Nat
  deriving DecidableEq, Repr

/-- R203: the region of a slot; none: a reserved code or no such slot. -/
def region? (shape slot fmt : Nat) : Option Region :=
  let per := if fmt == 1 then 4 else 8
  let q := slot / per
  let t := slot % per
  let words := if fmt == 1 then [2 * t, 2 * t + 1] else [t]
  if 2 < fmt then none
  else
    match shape with
    | 0 => if q < 1 then some ⟨0, 0, 128, 128, words⟩ else none
    | 1 => if q < 2 then some ⟨0, 64 * q, 128, 64, words⟩ else none
    | 2 => if q < 4 then some ⟨64 * (q / 2), 64 * (q % 2), 64, 64, words⟩ else none
    | _ => none

def Region.has (r : Region) (row col word : Nat) : Bool :=
  r.row ≤ row && row < r.row + r.rows && r.col ≤ col && col < r.col + r.cols && r.words.contains word

/-- R203: two footprints share a place. -/
def Region.meets (a b : Region) : Bool :=
  a.row < b.row + b.rows && b.row < a.row + a.rows && a.col < b.col + b.cols && b.col < a.col + a.cols
    && a.words.any fun w => b.words.contains w

/-- The places of a footprint, row by row. -/
def Region.places (r : Region) : List (Nat × Nat × Nat) :=
  (List.range r.rows).flatMap fun i => (List.range r.cols).flatMap fun j => r.words.map fun w => (r.row + i, r.col + j, w)

/-! ## Work units and streaming times (R169, R172 to R176, R246) -/

/-- R169: the plane bits of a B element. -/
def planesOf (f code : Nat) : List Bool :=
  if f == fB1 then [bitAt code 0]
  else if f == fT2 then [code % 4 == 1, code % 4 == 2]
  else (List.range 8).map (bitAt code)

def planeCount (f : Nat) : Nat := if f == fB1 then 1 else if f == fT2 then 2 else 8

/-- R172: units of a lane in a chunk. -/
def laneUnits (skip f : Nat) (codes : List Nat) : Nat :=
  let ps := codes.map (planesOf f)
  if skip == 0 then planeCount f
  else if skip == 1 then ((List.range (planeCount f)).filter fun p => ps.any fun x => x.getD p false).length
  else ceilDiv ((ps.map fun x => (x.filter id).length).foldl (· + ·) 0) 16

/-- R174: the chunk time of a wavefront's unit counts. -/
def chunkTime (us : List Nat) : Nat :=
  let total := us.foldl (· + ·) 0
  let top := us.foldl max 0
  let b := max (ceilDiv total 16) (ceilDiv top 2)
  max 1 (if top ≤ b + 1 then top else b + 1)

/-- R175: one chunk: the finish times of the eight wavefronts and the stall cycles, from the last four chunks' finish times (newest
first) and the chunk times. -/
def streamChunk (last : List (List Nat)) (times : List Nat) : List Nat × Nat :=
  let gate := match last[3]? with
    | some l => l.foldl max 0
    | none => 0
  let prev := last.headD (List.replicate 8 0)
  let start := prev.map (max gate)
  (List.zipWith (· + ·) start times, (List.zipWith (· - ·) start prev).foldl (· + ·) 0)

/-! ## Extremes (R222) -/

/-- R222: the winner of a maximum or minimum and its index, elements taken in order from a running winner. -/
def extremum (isMax : Bool) : Option (Num × Nat) → List (Num × Nat) → Option (Num × Nat)
  | best, [] => best
  | none, x :: xs => extremum isMax (some x) xs
  | some b, x :: xs =>
    if b.1.isNan then some b
    else if x.1.isNan then extremum isMax (some x) xs
    else if (if isMax then b.1.lt x.1 else x.1.lt b.1) then extremum isMax (some x) xs
    else extremum isMax (some b) xs

/-- R222: the limit opposite to a reduction. -/
def limitOf (isMax : Bool) : Num := .inf isMax

/-! ## The range monitor (R249, R252) -/

/-- R249: log2 of an element's magnitude without its scale, in units of 2^-64; none: it is not counted in bins by distance. -/
def monitorLog (f code : Nat) (subn : Nat) : Option Int × Bool :=
  let d := decodeNum f code 0 subn
  (d.1.mag.map fun m => m.log2.1, d.2)

/-- R249: the bin of a distance in units of 2^-64. -/
def monitorBin (d : Int) : Nat :=
  let k := d / 2 ^ 64
  if k < 7 then 0 else if k < 16 then 1 else if k < 64 then 2 else if k < 128 then 3 else 4

/-- R249: the five counts of one scale block's streamed elements. -/
def monitorBlock (f subn : Nat) (codes : List Nat) : List Nat :=
  let ls := codes.map fun c => monitorLog f c subn
  let top := (ls.filterMap fun l => l.1).max?
  let bins := ls.filterMap fun l =>
    if l.2 then some 4
    else match l.1, top with
      | some x, some t => some (monitorBin (t - x))
      | _, _ => none
  (List.range 5).map fun b => (bins.filter fun x => x == b).length

end Sys2Proof.Machine
end

