-- ==== Sys2Proof/Machine/Fabric.lean ====
section
/-! DEFINITION. The Windway fabric, sending side: routes (R463, R465), frames (R468 to R470), flow control and the retry buffer
(R472, R475), injection (R480, R481), remote requests (R477, R479) and their service at a target (R478). -/

namespace Sys2Proof

open Machine

/-! ## Frames (R468 to R470) -/

/-- R470: link frames carry no LSEQ. -/
def Frame.numbered (f : Frame) : Bool := f.type != 0 && f.type != 10 && f.type != 11

/-- R469: the header. -/
def Frame.header (f : Frame) : List Byte :=
  leBytes 4 (f.type + f.vc * 16 + f.hops * 2 ^ 8 + f.dst * 2 ^ 16) ++ leBytes 4 (f.src + f.payload.length * 2 ^ 16)
    ++ leBytes 4 (f.lseq + f.lack * 2 ^ 16) ++ leBytes 4 f.credit.toNat ++ leBytes 8 f.arg0.toNat ++ leBytes 4 f.tag.toNat
    ++ leBytes 4 f.arg1.toNat

/-- R468: the CRC over header and payload. -/
def Frame.crcOf (f : Frame) : Word32 := BitVec.ofNat 32 (crc32 (f.header ++ f.payload))

/-- Header, payload and trailer. -/
def Frame.bytes (f : Frame) : List Byte := f.header ++ f.payload ++ leBytes 4 f.crc.toNat ++ zeros 4

/-- What crosses the PCS (R468): data bytes, the start character of a packet, idle. -/
inductive PcsSymbol
  | idle
  | start
  | data (b : Byte)
  deriving DecidableEq, Repr

/-- R468: the packet of a frame, and the 8 bytes of idle that at the least separate it from the next. -/
def Frame.packet (f : Frame) : List PcsSymbol :=
  .start :: (List.replicate 6 0x57#8 ++ 0xD7#8 :: f.bytes).map PcsSymbol.data ++ List.replicate 8 .idle

/-- R475: credits a numbered frame costs. -/
def Frame.cost (f : Frame) : Nat := ceilDiv (32 + f.payload.length) 64

end Sys2Proof

namespace Sys2Proof.Machine

/-! ## The mesh (R463, R465) -/

/-- S0, S1, S2. -/
def Fabric.size (f : Fabric) (i : Nat) : Nat := field f.word8.toNat (4 * i + 3) (4 * i) + 1

def Fabric.ranks (f : Fabric) : Nat := f.size 0 * f.size 1 * f.size 2

/-- R463: coordinate i of a rank. -/
def Fabric.coord (f : Fabric) (i r : Nat) : Nat :=
  match i with
  | 0 => r % f.size 0
  | 1 => r / f.size 0 % f.size 1
  | _ => r / (f.size 0 * f.size 1)

/-- R462: the direction mask of dimension i. -/
def Fabric.mask (f : Fabric) (i : Nat) (plus : Bool) : BitVec 16 :=
  match i, plus with
  | 0, false => f.d0minus
  | 0, true => f.d0plus
  | 1, false => f.d1minus
  | 1, true => f.d1plus
  | _, false => f.d2minus
  | _, true => f.d2plus

def portsOf (m : BitVec 16) : List Nat := (List.range 16).filter fun p => m.getLsbD p

/-- R465: a rank of the mesh; any other is unreachable. -/
def Fabric.reaches (f : Fabric) (r : Nat) : Bool := r < f.ranks

/-- R465: the first dimension in which two ranks differ. -/
def Fabric.turn (f : Fabric) (dst : Nat) : Option Nat :=
  [0, 1, 2].find? fun i => f.coord i dst != f.coord i f.rank

/-- R465: the port a frame leaves by; none: it is delivered locally. -/
def Fabric.route (f : Fabric) (src dst : Nat) : Option Nat :=
  match f.turn dst with
  | none => none
  | some i =>
    let ports := portsOf (f.mask i (f.coord i f.rank < f.coord i dst))
    ports[(src + dst) % ports.length]?

/-- The frame that bytes spell, its length that of the frame sent. -/
def frameOf (bs : List Byte) : Frame :=
  let w0 := get32 bs 0
  let w2 := get32 bs 8
  let n := bs.length - 40
  { type := field w0 3 0, vc := field w0 5 4, hops := field w0 15 8, dst := field w0 27 16, src := field (get32 bs 4) 11 0,
    lseq := w2 % 65536, lack := w2 / 65536, credit := BitVec.ofNat 32 (get32 bs 12), arg0 := BitVec.ofNat 64 (get64 bs 16),
    tag := BitVec.ofNat 32 (get32 bs 24), arg1 := BitVec.ofNat 32 (get32 bs 28), payload := (bs.drop 32).take n,
    crc := BitVec.ofNat 32 (get32 bs (32 + n)), fecOk := true }

/-- Bit n of bytes flipped. -/
def flipBit (bs : List Byte) (n : Nat) : List Byte := bs.modify (n / 8) fun b => b ^^^ (1#8 <<< (n % 8))

def State.port? (s : State) (p : Nat) : Option Port := s.ww.ports[p]?

def State.modPort (s : State) (p : Nat) (f : Port → Port) : State :=
  { s with ww := { s.ww with ports := s.ww.ports.modify p f } }

def Port.count (p : Port) (f : PortCounters → PortCounters) : Port := { p with counters := f p.counters }

/-- R469, R472, R475: LACK, the credits returned, and the CRC of a frame as it is sent. -/
def Port.stamp (p : Port) (f : Frame) : Frame × Port :=
  let give := p.owed.map (min 255)
  let f := { f with lack := p.rxSeq, credit := BitVec.ofNat 32 (getLe (give.map (BitVec.ofNat 8)) 0 4) }
  ({ f with crc := f.crcOf }, { p with owed := List.zipWith (fun a b => a - b) p.owed give })

/-- A frame crosses the port's pins. -/
def State.wire (s : State) (p : Nat) (f : Frame) : State :=
  ({ s with out := s.out ++ [Output.frame p f] }).modPort p fun x => x.count fun c =>
    { c with framesTx := bump c.framesTx 1, payloadTx := bump c.payloadTx f.payload.length }

/-- R470: a link frame is sent. -/
def State.sendLink (s : State) (p : Nat) (f : Frame) : State :=
  match s.port? p with
  | none => s
  | some x =>
    let a := x.stamp f
    (s.modPort p fun _ => a.2).wire p a.1

/-- R480: the Flutter word of the frame now counted. -/
def State.injectWord (s : State) (kind unit : Nat) : Nat :=
  match s.injections.find? fun i => i.kind == kind && i.unit == unit with
  | none => 0
  | some i => flutter i.seed.toNat (0xC0000000 + 0x1000 * kind + unit) i.events

/-- R481: a frame held back goes after the next numbered frame. -/
def State.releaseHeld (s : State) (p : Nat) : State :=
  match s.port? p with
  | none => s
  | some x =>
    match x.reordered with
    | none => s
    | some f => (s.modPort p fun x => { x with reordered := none }).wire p f

/-- R471, R480, R481: a numbered frame, new or resent, is sent under the port's injection setting. -/
def State.emit (s : State) (p : Nat) (f : Frame) : State :=
  match s.port? p with
  | none => s
  | some x =>
    let a := x.stamp f
    let f := a.1
    let s := s.modPort p fun _ => a.2
    let bit := field (s.injectWord 1 p) 47 32
    let i := s.injectEvent 1 p
    let s := if i.1 == 0 then i.2 else i.2.modPort p fun x => x.count fun c => { c with injected := bump c.injected 1 }
    if i.1 == 1 then s.releaseHeld p
    else if i.1 == 2 then (s.wire p (frameOf (flipBit f.bytes (bit % (8 * f.bytes.length))))).releaseHeld p
    else if i.1 == 3 then (s.releaseHeld p).modPort p fun x => { x with reordered := some f }
    else if i.1 == 4 && !f.payload.isEmpty then
      let g := { f with payload := flipBit f.payload (bit % (8 * f.payload.length)) }
      (s.wire p { g with crc := g.crcOf }).releaseHeld p
    else (s.wire p f).releaseHeld p

/-- R472: bytes the retry buffer holds. -/
def Port.retryBytes (p : Port) : Nat := (p.retry.map fun f => 40 + f.payload.length).foldl (· + ·) 0

/-- R472, R475: a waiting frame may be sent: its VC has credit and the retry buffer room. -/
def Port.maySend (p : Port) (f : Frame) : Bool :=
  f.cost ≤ p.credits.getD f.vc 0 && p.retryBytes + 40 + f.payload.length ≤ 65536

/-- R472: a numbered frame takes its LSEQ and its place in the retry buffer. -/
def State.sendNumbered (s : State) (p : Nat) (f : Frame) : State :=
  match s.port? p with
  | none => s
  | some x =>
    let f := { f with lseq := (x.txSeq + 1) % 65536 }
    (s.modPort p fun x => { x with
      txSeq := f.lseq
      credits := x.credits.modify f.vc fun c => c - f.cost
      retry := x.retry ++ [f]
      resends := x.resends ++ [0] }).emit p f

/-- R475: sends what may be sent, in order within each VC; blocked are the VCs already found waiting. -/
def State.drain (s : State) (p : Nat) : List Nat → List Frame → State
  | _, [] => s
  | blocked, f :: fs =>
    match s.port? p with
    | none => s
    | some x =>
      if !blocked.contains f.vc && x.maySend f then (s.sendNumbered p f).drain p blocked fs
      else (s.modPort p fun x => { x with waiting := x.waiting ++ [f] }).drain p (f.vc :: blocked) fs

/-- R465: sends the frames that wait at a port, once it is UP. -/
def State.pumpPort (s : State) (p : Nat) : State :=
  match s.port? p with
  | none => s
  | some x =>
    if x.state != .up then s else (s.modPort p fun x => { x with waiting := [] }).drain p [] x.waiting

/-- Puts a frame in the queue of a port. -/
def State.queueFrame (s : State) (p : Nat) (f : Frame) : State :=
  (s.modPort p fun x => { x with waiting := x.waiting ++ [f] }).pumpPort p

/-- R466: HOPS of a frame as its sender sets it. -/
def Fabric.hops (f : Fabric) : Nat := (f.size 0 - 1) + (f.size 1 - 1) + (f.size 2 - 1)

/-- A frame of this device. -/
def State.newFrame (s : State) (dst type vc : Nat) (arg0 : Nat) (tag arg1 : Nat) (payload : List Byte) : Frame :=
  { type := type, vc := vc, hops := s.ww.fabric.hops % 256, dst := dst, src := s.ww.fabric.rank, lseq := 0, lack := 0, credit := 0#32,
    arg0 := BitVec.ofNat 64 arg0, tag := BitVec.ofNat 32 tag, arg1 := BitVec.ofNat 32 arg1,
    payload := padTo (roundUp payload.length 8) payload, crc := 0#32, fecOk := true }

/-- R483: a frame or a request for a rank that is not of the mesh. -/
def State.countUnreachable (s : State) : State := { s with ww := { s.ww with unreachable := bump s.ww.unreachable 1 } }

/-- R465: sends a frame to another rank; one for a rank outside the mesh goes nowhere. -/
def State.sendFrame (s : State) (f : Frame) : State :=
  if !s.ww.fabric.reaches f.dst then s.countUnreachable
  else
    match s.ww.fabric.route f.src f.dst with
    | some p => s.queueFrame p f
    | none => s

/-! ## Service at the target (R352, R365, R478) -/

/-- R365, R470: the new value of an atomic. The manual does not say whether MAX compares signed: Config leaves it open (log 24). -/
def amoValue (op : Nat) (old a b : Word64) : Word64 :=
  match op with
  | 0 => old + a
  | 1 => a
  | 2 => if old == a then b else old
  | _ => if Config.amoMaxSigned then (if old.slt a then a else old) else (if old.ult a then a else old)

/-- What an atomic meets: the old value, or as vread. -/
def State.amo (s : State) (r : Reader) (o : Origin) (op va : Nat) (a b : Word64) : Got × State :=
  match s.translateSpan o .atomic va 8 with
  | .error (c, x) => (.stop c x, s)
  | .ok ts =>
    match awayOf ts with
    | some t => (.away t, s)
    | none =>
      let g := s.readPieces r ts
      match g.1 with
      | .bytes bs =>
        (.bytes bs, g.2.writePieces r ts (leBytes 8 (amoValue op (BitVec.ofNat 64 (leNat bs)) a b).toNat))
      | g1 => (g1, g.2)

/-- What a served request answers: OUTCOME of R478 and data, or a stop. -/
inductive Served
  | done (outcome : Nat) (data : List Byte)
  | held (cls acc va : Nat)

/-- R478: how a request that could not be performed is answered. Memory that is not the device's own answers RANGE_OR_KIND (DESIGN
CHOICE, log 25). -/
def State.servedBad (s : State) (acc : Acc) (g : Got) : Served × State :=
  match g with
  | .bytes b => (.done 0 b, s)
  | .dead _ => (.done 3 [], s)
  | .away _ => (.done 2 [], s)
  | .stop cls va =>
    if suspends cls then (.held cls acc.code va, s)
    else if cls == 5 then (.done 3 [], (s.walkRecord va).2)
    else (.done 2 [], s)

/-- The X-die of the port by which a rank is reached; X-die 0 for the device's own. -/
def Fabric.xdieTo (f : Fabric) (rank : Nat) : Nat := (f.route f.rank rank).elim 0 fun p => p / 4

/-- R478: performs a request from a peer, whose accesses leave from the X-die of its port. -/
def State.serve (s : State) (f : Frame) : Served × State :=
  let va := f.arg0.toNat % 2 ^ 52
  let u := s.freeReader
  let r := (u.1.on (.x, s.ww.fabric.xdieTo f.src), u.2)
  match f.type with
  | 1 =>
    let g := r.2.vread r.1 .peer .read va (field f.arg1.toNat 9 0)
    g.2.servedBad .read g.1
  | 2 =>
    let g := r.2.vwrite r.1 .peer .write va (f.payload.take (field f.arg1.toNat 9 0))
    g.2.servedBad .write g.1
  | _ =>
    let g := r.2.amo r.1 .peer (field f.arg1.toNat 1 0) va (BitVec.ofNat 64 (get64 f.payload 0))
      (BitVec.ofNat 64 (get64 f.payload 8))
    g.2.servedBad .atomic g.1

/-- R475: credits are owed to the peer of a port, or no longer. -/
def State.owe (s : State) (port vc cost : Nat) : State :=
  s.modPort port fun x => { x with owed := x.owed.modify vc fun n => n + cost }

def State.withhold (s : State) (port vc cost : Nat) : State :=
  s.modPort port fun x => { x with owed := x.owed.modify vc fun n => n - cost }

/-- R475: the fault hold of the X-die of a port is full. -/
def State.faultHoldFull (s : State) (port : Nat) : Bool :=
  1024 ≤ (s.ww.peerHold.filter fun q => !q.owes && q.port.any fun x => x / 4 == port / 4).length

/-- R475: keeps a request that faulted until its fault is resolved. While the fault hold is full, it stays in its port's buffer. -/
def State.holdPeer (s : State) (port : Option Nat) (f : Frame) (cls acc va : Nat) : State :=
  let u := s.newUid
  let stays := port.any fun p => u.2.faultHoldFull p
  let t := if stays then port.elim u.2 fun p => u.2.withhold p f.vc f.cost else u.2
  { t with ww := { t.ww with peerHold := t.ww.peerHold ++ [⟨u.1, f, port, stays, ⟨cls, acc, va, true, false, none⟩⟩] } }

/-- R475: a request leaves its port's buffer. -/
def State.payRequest (s : State) (q : PeerReq) : State := if q.owes then q.port.elim s fun p => s.owe p q.frame.vc q.frame.cost else s

/-- R475: a held request goes; one that waits in a port's buffer may take its place. -/
def State.dropPeer (s : State) (q : PeerReq) : State :=
  let s := s.payRequest q
  let s := { s with ww := { s.ww with peerHold := s.ww.peerHold.filter fun x => x.index != q.index } }
  s.ww.peerHold.foldl (fun s x =>
    if !x.owes || x.port.any (fun p => s.faultHoldFull p) then s
    else
      let t := s.payRequest x
      { t with ww := { t.ww with peerHold := updIf (fun y => y.index == x.index) (fun y => { y with owes := false }) t.ww.peerHold } }) s

/-! ## Remote requests (R477, R479) -/

/-- R550: the REMOTE_ERROR record of a rank, an address and a cause. -/
def State.remoteError (s : State) (rank addr cause : Nat) : Nat × State :=
  let p := s.ww.fabric.route s.ww.fabric.rank rank
  s.record
    { cls := 0x0066, severity := 2, siteKind := (match p with | some _ => 6 | none => 7), site := p.getD 0, unit := 0xFFFF,
      injected := false, payload := [rank, addr % 2 ^ 32, addr / 2 ^ 32, cause] }

/-- What a remote request answers; later: the number that its requester waits under (odd; those of host reads are even). -/
inductive Reply
  | now (data : List Byte)
  | later (tag : Nat)
  | failed (record : Nat)
  | busy

/-- R477: requests of an X-die that are outstanding. -/
def State.outstanding (s : State) (xdie : Nat) : Nat :=
  (s.ww.requests.filter fun r => (match s.ww.fabric.route s.ww.fabric.rank r.rank with
    | some p => p / 4
    | none => 0) == xdie).length

/-- R477, R479: asks rank for a READ (1), WRITE (2) or AMO (3) of len bytes, at most 512, from a virtual address of the owner's. The device's
own rank is served at once. -/
def State.ask (s : State) (kind rank addr len : Nat) (arg1 : Nat) (payload : List Byte) (owner : Requester) (from_ : Nat) : Reply × State :=
  if !s.ww.fabric.reaches rank then
    let a := s.countUnreachable.remoteError rank addr 5
    (.failed a.1, a.2)
  else
    let tag := s.ww.nextTag
    let f := s.newFrame rank kind 0 addr tag arg1 payload
    let req : RemoteReq := ⟨tag, from_, rank, addr, kind, len, owner⟩
    let s1 := { s with ww := { s.ww with nextTag := (tag + 1) % 2 ^ 32, requests := s.ww.requests ++ [req] } }
    match s.ww.fabric.route s.ww.fabric.rank rank with
    | none =>
      let g := s.serve f
      match g.1 with
      | .done 0 data => (.now data, g.2)
      | .done o _ =>
        let a := g.2.remoteError rank addr o
        (.failed a.1, a.2)
      | .held cls acc va => (.later (2 * tag + 1), s1.holdPeer none f cls acc va)
    | some p =>
      if 4096 ≤ s.outstanding (p / 4) then (.busy, s)
      else (.later (2 * tag + 1), (s1.crossOut owner (p / 4) payload.length).queueFrame p f)

end Sys2Proof.Machine
end

