-- ==== Sys2Proof/Machine/Work.lean ====
section
/-! DEFINITION. SUBMIT queues and the engines' queues: CREATE_QUEUE, DESTROY_QUEUE, SUBMIT, CANCEL, the hand-off of items (R112,
R227 to R230, R254, R343). -/

namespace Sys2Proof.Machine

/-- Status codes of R231, R347, R427 and R451 that several engines share. -/
def stMalformed : Nat := 0x0100
def stRemoteOperand : Nat := 0x0101

/-! ## Host memory in a command's view (log 10) -/

def hostByte (h : HostView) (a : Nat) : Option Byte :=
  match h.find? fun g => g.base ≤ a && a < g.base + g.bytes.length with
  | some g => g.bytes[a - g.base]?
  | none => none

/-- n bytes of host memory; none: the read fails (R83). -/
def hostBytes (h : HostView) (a n : Nat) : Option (List Byte) := (List.range n).mapM fun i => hostByte h (a + i)

/-! ## Checks of descriptors (R232) -/

/-- R231: the offset of the first bad field, as the tables write it: that of its word. -/
def leastBad (l : List (Nat × Bool)) : Option Nat := ((l.filter fun p => p.2).map fun p => p.1).min?

/-- A 57-bit address in two words. -/
def descAddr (d : List Byte) (off : Nat) : Nat := get32 d off + field (get32 d (off + 4)) 24 0 * 2 ^ 32

/-- Bits [31:25] of an address's second word must be 0. -/
def addrBad (d : List Byte) (off : Nat) : Nat × Bool := (off + 4, field (get32 d (off + 4)) 31 25 != 0)

/-- The same of an address that the table lists as one field, at its own offset. -/
def wideBad (d : List Byte) (off : Nat) : Nat × Bool := (off, (addrBad d off).2)

/-- A reserved field from lo to hi - 1, which must be 0. -/
def gapBad (d : List Byte) (lo hi : Nat) : Nat × Bool := (lo, ((d.drop lo).take (hi - lo)).any fun b => b != 0#8)

/-- The fields of a word each from lo to hi - 1 must be 0. -/
def zeroBad (d : List Byte) (lo hi : Nat) : List (Nat × Bool) :=
  (List.range ((hi - lo) / 4)).map fun i => (lo + 4 * i, get32 d (lo + 4 * i) != 0)

/-- R231, R233: STATUS, the target word and what follows it up to an offset. -/
def tailBad (d : List Byte) (hi : Nat) : List (Nat × Bool) :=
  [(0x88, descAddr d 0x88 % 32 != 0), addrBad d 0x88, (0x90, get16 d 0x92 != 0), gapBad d 0x94 hi]

/-! ## Where a descriptor goes (R229, R319, R402) -/

/-- An engine's queue. -/
inductive EngineRef
  | matrix (e : ClusterId)
  | vector (e : ClusterId)
  | router (x : Nat)
  | consort (x : Nat)
  deriving DecidableEq, Repr

def descKind (d : List Byte) : Nat := get8 d 0 % 16

/-- R233: CDIE and CLUSTER. -/
def descCluster (d : List Byte) : ClusterId := ⟨get8 d 0x90, get8 d 0x91⟩

/-- A routing layer record by layer (R324). -/
def State.layerRecord (s : State) (layer : Nat) : Option (List Byte) :=
  (s.routing.layers.find? fun l => l.1 == layer).map fun l => l.2

/-- R319: HOME_XDIE of a routing descriptor's layer; a layer without a record is refused on X-die 0 (DEDUCED, log 26). -/
def State.homeXdie (s : State) (d : List Byte) : Nat :=
  match s.layerRecord (get16 d 4) with
  | some r => min (field (get16 r 0) 15 14) (s.fuses.part.x - 1)
  | none => 0

def State.group? (s : State) (g : Nat) : Option Group := s.coll.groups.find? fun x => x.num == g

/-- R402: the X-die of a REDUCE; one that names no layer is refused on X-die 0 (DEDUCED, log 26). -/
def State.reduceXdie (s : State) (d : List Byte) : Nat :=
  let x := if field (get8 d 0) 5 4 == 1 then field (get8 d 0) 7 6
    else
      match s.group? (get16 d 4) with
      | some g => (match g.layout with
        | some l => field (get32 (l.getD (get32 d 8) []) 0) 20 19
        | none => 0)
      | none => 0
  if x < s.fuses.part.x then x else 0

/-- The engine of a descriptor from a SUBMIT queue, or the DETAIL it is malformed with (R229). -/
def State.engineOf (s : State) (d : List Byte) : Except Nat EngineRef :=
  let k := descKind d
  let e := descCluster d
  if k == 0 || 7 ≤ k then .error 0
  else if k == 4 then .ok (.router (s.homeXdie d))
  else if k == 6 then .ok (.consort (s.reduceXdie d))
  else if !(e.cdie < s.fuses.part.c && e.cluster < 16) then .error 0x90
  else if k == 3 then .ok (.vector e)
  else .ok (.matrix e)

/-- R269: source A of a vector descriptor is an accumulator tile. -/
def readsAccumulator (d : List Byte) : Bool := field (get32 d 0x14) 31 30 == 3

/-- R227, R258, R319, R402: an engine's queue is full. R221: a vector read of a tile needs an entry of the matrix queue too. -/
def State.engineFull (s : State) (d : List Byte) : EngineRef → Bool
  | .matrix e => (match s.cluster? e with | some c => 32 ≤ c.matrix.queue.length | none => true)
  | .vector e => (match s.cluster? e with
    | some c => 16 ≤ c.vector.queue.length || (readsAccumulator d && 32 ≤ c.matrix.queue.length)
    | none => true)
  | .router x => (match s.routers[x]? with | some r => 32 ≤ r.queue.length | none => true)
  | .consort x => (match s.consorts[x]? with | some c => 64 ≤ c.queue.length | none => true)

/-- R254: URGENT entries go ahead of NORMAL entries that have not started, in issue order within each priority. started: the uid of an entry
that has, which stays ahead. -/
def insertWork (started : Option Nat) (w : Work) (q : List Work) : List Work :=
  let ahead (x : Work) : Bool := x.urgent || started == some x.uid
  if w.urgent then (q.filter ahead) ++ w :: (q.filter fun x => !ahead x) else q ++ [w]

/-- The vector instruction at work in a cluster, by its uid: its entry in the matrix engine's queue has started (R208, R221). -/
def Cluster.vectorAt (c : Cluster) : Option Nat := c.vector.active.map fun op => op.work.uid

/-- R227: an engine accepts a descriptor into its queue. -/
def State.acceptWork (s : State) (r : EngineRef) (w : Work) : State :=
  match r with
  | .matrix e => (s.powerUp (.cluster e)).modCluster e fun c =>
    { c with matrix := { c.matrix with queue := insertWork c.vectorAt w c.matrix.queue } }
  | .vector e =>
    let s := (s.powerUp (.cluster e)).modVector e fun v => { v with queue := insertWork none w v.queue }
    -- R221: a read of an accumulator tile takes its place in the matrix engine's queue
    if readsAccumulator w.desc then s.modCluster e fun c =>
      { c with matrix := { c.matrix with queue := insertWork c.vectorAt w c.matrix.queue } }
    else s
  | .router x =>
    let s := s.powerUp (.engines x)
    { s with routers := s.routers.modify x fun r => { r with queue := r.queue ++ [w] } }
  | .consort x =>
    let s := s.powerUp (.consort x)
    { s with consorts := s.consorts.modify x fun c => { c with queue := c.queue ++ [w] } }

/-- R229: the item that firmware may hand on next: nothing later while a DMA item has not ended. -/
def nextItem : List Item → Option Item
  | [] => none
  | it :: rest =>
    match it.state with
    | .waiting => some it
    | .ended _ _ _ _ => nextItem rest
    | .started => (match it.work with
      | .dma _ _ _ _ => none
      | .desc _ => nextItem rest
      | .failed _ _ => nextItem rest)

/-- R94, R121, R124: work may be handed on. -/
def State.serves (s : State) : Bool :=
  s.fw.start == .ready && s.session.state == .attached && s.session.detaching.isNone && s.fw.activation != .handing

/-- The engines run: firmware has started them, and no handover holds them at a group boundary (R124). -/
def State.enginesRun (s : State) : Bool := s.fw.start == .ready && s.fw.activation != .handing

/-- The next item of a queue, where its completions can be held (R108). -/
def State.offered (s : State) (num : Nat) : Option (Queue × Item) :=
  match s.queue? num with
  | none => none
  | some q =>
    if !s.serves || s.carrelFull q.carrel then none
    else (nextItem q.items).map fun it => (q, it)

def State.startItem (s : State) (num uid : Nat) : State :=
  s.modQueue num fun q => { q with items := updIf (fun it => it.uid == uid) (fun it => { it with state := .started }) q.items }

/-- R229: hands the next item of a queue on to its engine. -/
def execQueueItemHandoff (queue : Nat) (s : State) : Host.Outcome State Fault Refusal := s.after <|
  match s.offered queue with
  | none => .next s
  | some (q, it) =>
    match it.work with
    | .dma _ _ _ _ => .next s
    | .failed status detail => .next (s.endItem queue it.uid status detail 0#32 0#32)
    | .desc d =>
      match s.engineOf d with
      | .error detail => .next (s.endItem queue it.uid stMalformed detail 0#32 0#32)
      | .ok r =>
        if descKind d == 5 || s.engineFull d r then .next s
        else .next ((s.startItem queue it.uid).acceptWork r ⟨it.uid, .queue queue, q.urgent, d, []⟩)

/-! ## Queue commands -/

/-- The least free number at or after n, wrapping at 1,024; used are the numbers taken. -/
def freeNumber (used : List Nat) (n : Nat) : Option Nat :=
  ((List.range 1024).map fun i => (n + i) % 1024).find? fun k => !used.contains k

/-- R343: CREATE_QUEUE; which free number it returns is a free choice (log 27). -/
def createQueueBody (carrel : Nat) (pl : List Byte) (s : State) : Answer × State :=
  let prio := get8 pl 0
  if 1 < prio then (ansField 0, s)
  else
    let f := s.fresh
    match freeNumber (s.queues.map fun q => q.num) (f.1.toNat % 1024) with
    | none => (ans stNoResource, s)
    | some n => (ansOk (leBytes 2 n), { f.2 with queues := s.queues ++ [⟨n, carrel, prio == 1, []⟩] })

def execCreateQueue (carrel : Nat) (s : State) : Host.Outcome State Fault Refusal := s.after <|
  takeRing carrel 0x0040 (createQueueBody carrel) s

/-- R343: DESTROY_QUEUE. -/
def destroyQueueBody (pl : List Byte) (s : State) : Answer × State :=
  match s.queue? (get16 pl 0) with
  | none => (ansField 0, s)
  | some q =>
    if q.items.isEmpty then (ansOk [], { s with queues := s.queues.filter fun x => x.num != q.num }) else (ans stBusy, s)

def execDestroyQueue (carrel : Nat) (s : State) : Host.Outcome State Fault Refusal := s.after <| takeRing carrel 0x0041 destroyQueueBody s

def Item.waits (it : Item) : Bool := it.state == .waiting

/-- R112: CANCEL ends every item that has not started. -/
def cancelBody (pl : List Byte) (s : State) : Answer × State :=
  match s.queue? (get16 pl 0) with
  | none => (ansField 0, s)
  | some q =>
    let n := (q.items.filter Item.waits).length
    (ansOk (leBytes 4 n),
      (s.modQueue q.num fun q =>
        { q with items := updIf Item.waits (fun it => { it with state := .ended stCancelled 0 0#32 0#32 }) q.items
        }).postQueue q.num)

def execCancel (carrel : Nat) (s : State) : Host.Outcome State Fault Refusal := s.after <| takeRing carrel 0x0043 cancelBody s

/-- Appends an item to a queue. -/
def State.addItem (s : State) (num via : Nat) (ticket tag : Word32) (op : Nat) (w : ItemWork) : State :=
  let u := s.newUid
  u.2.modQueue num fun q => { q with items := q.items ++ [⟨u.1, via, ticket, tag, op, w, .waiting⟩] }

/-- The TAG of the request in a carrel. -/
def State.tagOf (s : State) (k : Nat) : Word32 := (s.carrel? k).elim 0#32 Carrel.tag

/-- R229: reads one descriptor. A page of a remote device ends the item as a KIND fault does (DEDUCED, log 26). -/
def State.readDesc (s : State) (h : HostView) : List (Target × Nat) → Except (Nat × Nat) (List Byte) × State
  | [] => (.ok [], s)
  | (t, n) :: ts =>
    match t with
    | .host a =>
      (match hostBytes h a n with
      | none => (.error (stHostDmaError, 0), s)
      | some b =>
        match s.readDesc h ts with
        | (.ok r, s') => (.ok (b ++ r), s')
        | (.error e, s') => (.error e, s'))
    | .remote _ _ => (.error (stTranslationFault, 4), s)
    | t =>
      let r := s.freeReader
      let g := r.2.readPieces r.1 [(t, n)]
      match g.1 with
      | .bytes b =>
        (match g.2.readDesc h ts with
        | (.ok r, s') => (.ok (b ++ r), s')
        | (.error e, s') => (.error e, s'))
      | .dead k => (.error (stDeviceError, k % 65536), g.2)
      | .stop c _ => (.error (stTranslationFault, c), g.2)
      | .away _ => (.error (stTranslationFault, 4), g.2)

/-- R229: the items of a SUBMIT, read in order. -/
def State.submitItems (s : State) (h : HostView) (num via : Nat) (ticket tag : Word32) : List Nat → State
  | [] => s
  | va :: rest =>
    let g : ItemWork × State :=
      match s.translateSpan .device .read va 192 with
      | .error (c, a) => (.failed stTranslationFault c, (s.faultEnding c a).2)
      | .ok ts =>
        match s.readDesc h ts with
        | (.ok d, s') => (.desc d, s')
        | (.error e, s') => (.failed e.1 e.2, s')
    (g.2.addItem num via ticket tag 0x0042 g.1).submitItems h num via ticket tag rest

/-- R229: SUBMIT. -/
def submitBody (carrel : Nat) (h : HostView) (pl : List Byte) (s : State) : Answer × State :=
  let va := get64 pl 0
  let count := get32 pl 8
  if va % 64 != 0 then (ansField 0, s)
  else if count == 0 then (ansField 8, s)
  else
    match s.queue? (get16 pl 12) with
    | none => (ansField 12, s)
    | some q =>
      let t := s.newTicket carrel
      (ansAccepted t.1,
        t.2.submitItems h q.num carrel t.1 (s.tagOf carrel) ((List.range count).map fun i => va + 192 * i))

/-- Pieces of the host's memory among translated pieces. -/
def touchesHost (ts : List (Target × Nat)) : Bool := ts.any fun p => (match p.1 with | .host _ => true | _ => false)

/-- R80, R229: a SUBMIT that is accepted reads descriptors in host memory. -/
def State.submitFromHost (s : State) (pl : List Byte) : Bool :=
  get64 pl 0 % 64 == 0 && (s.queue? (get16 pl 12)).isSome
    && (List.range (get32 pl 8)).any fun i =>
      match s.translateSpan .device .read (get64 pl 0 + 192 * i) 192 with
      | .ok ts => touchesHost ts
      | .error _ => false

/-- R229, R80: a SUBMIT whose descriptors must be read from the host waits while mastering is not allowed. -/
def execSubmit (carrel : Nat) (h : HostView) (s : State) : Host.Outcome State Fault Refusal := s.after <|
  s.unlessHeld carrel 0x0042 (fun pl => !s.canMaster && s.submitFromHost pl) (takeRing carrel 0x0042 (submitBody carrel h) s)

/-! ## Status records (R230, R347) -/

/-- How a record's write went: done; stopped, with class and address; or refused by the fabric, with the Ledger record (R479). -/
inductive Wrote
  | ok
  | stop (cls va : Nat)
  | failed (record : Nat)

/-- R477: the requests of bs bytes that a piece in remote memory takes exceed what its X-die may have outstanding. -/
def State.pieceBusy (s : State) (p : Target × Nat) : Bool :=
  match p.1 with
  | .remote k _ => (s.ww.fabric.route s.ww.fabric.rank k).isSome && 4096 < s.outstanding (s.ww.fabric.xdieTo k) + ceilDiv p.2 512 + 1
  | _ => false

/-- R80, R477: n bytes at an address lie in host memory, or in remote memory, of which no request may be made now; address 0: none. -/
def State.recordHeld (s : State) (va n : Nat) : Bool :=
  va != 0
    && (match s.translateSpan .device .write va n with
      | .ok ts => (touchesHost ts && !s.canMaster) || ts.any s.pieceBusy
      | .error _ => false)

/-- R477: bytes written to remote memory in WRITE requests; fuel bounds them. The record of one that could not be sent. -/
def State.askWrites (owner : Requester) (k : Nat) : Nat → State → Nat → Nat → List Byte → Option Nat × State
  | 0, s, _, _, _ => (none, s)
  | fuel + 1, s, a, va, bs =>
    if bs.isEmpty then (none, s)
    else
      let n := min 512 bs.length
      match s.ask 2 k a n n (bs.take n) owner va with
      | (.failed r, s') => (some r, s')
      | (_, s') => askWrites owner k fuel s' (a + n) (va + n) (bs.drop n)

/-- Writes bytes to translated pieces wherever they lie: host memory takes posted writes (R81), a remote rank WRITE requests (R477). -/
def State.recordPieces (r : Reader) (owner : Requester) : List (Target × Nat) → State → Nat → List Byte → Option Nat × State
  | [], s, _, _ => (none, s)
  | (t, n) :: ts, s, va, bs =>
    let g : Option Nat × State := match t with
      | .host a => (none, (s.crossOut owner 0 n).sendWrite a (bs.take n))
      | .remote k a => s.askWrites owner k (n + 1) a va (bs.take n)
      | t => (none, s.writePieces r [(t, n)] (bs.take n))
    match g.1 with
    | some x => (some x, g.2)
    | none => recordPieces r owner ts g.2 (va + n) (bs.drop n)

/-- R230: writes a record. -/
def State.writeRecord (s : State) (r : Reader) (owner : Requester) (va : Nat) (bs : List Byte) : Wrote × State :=
  match s.translateSpan .device .write va bs.length with
  | .error (c, a) => (.stop c a, s)
  | .ok ts =>
    match s.recordPieces r owner ts va bs with
    | (some x, s') => (.failed x, s')
    | (none, s') => (.ok, s')

/-- R230: writes a status record, its word 0 last where the record leaves the device. -/
def State.writeStatus (s : State) (r : Reader) (owner : Requester) (va : Nat) (bs : List Byte) : Wrote × State :=
  match s.translateSpan .device .write va bs.length with
  | .error (c, a) => (.stop c a, s)
  | .ok ts =>
    match awayOf ts with
    | none => (.ok, s.writePieces r ts bs)
    | some _ =>
      match s.writeRecord r owner (va + 4) (bs.drop 4) with
      | (.ok, s') => s'.writeRecord r owner va (bs.take 4)
      | g => g

/-! ## Reads that commands make -/

/-- R306: firmware reads n bytes at an address that a command names. Host and remote memory end the command as a KIND fault does
(DESIGN CHOICE, log 35). -/
def State.commandRead (s : State) (va n : Nat) : Except Answer (List Byte) × State :=
  let r := s.freeReader
  let g := r.2.vread r.1 .device .read va n
  match g.1 with
  | .bytes b => (.ok b, g.2)
  | .stop c a =>
    let e := g.2.faultEnding c a
    (.error ⟨e.1.status, e.1.detail, [], 0#32⟩, e.2)
  | .dead k => (.error ⟨stDeviceError, k % 65536, [], 0#32⟩, g.2)
  | .away _ => (.error ⟨stTranslationFault, 4, [], 0#32⟩, g.2)

end Sys2Proof.Machine
end

