-- ==== Sys2Proof/Machine/Engine.lean ====
section
/-! DEFINITION. What the engines share: reads and writes of local memory with the ways they stop (R238, R257, R367, R389), table
banks (R187), status records (R230, R231), accumulator words (R198, R205, R224). -/

namespace Sys2Proof.Machine

/-! ## How an access stops an operation -/

/-- A translation fault, an uncorrectable error's record, or a page outside the memory the operation may use (DETAIL of R231). -/
inductive Halt
  | fault (acc : Acc) (cls va : Nat)
  | dead (record : Nat)
  | remote (detail : Nat)

/-- R238, R389: reads n bytes of local memory that own allows. -/
def State.fetchIn (s : State) (r : Reader) (own : Nat → Bool) (detail va n : Nat) : Except Halt (List Byte) × State :=
  match s.translateSpan .device .read va n with
  | .error (c, a) => (.error (.fault .read c a), s)
  | .ok ts =>
    if ts.all fun p => (match p.1 with | .mem .loc o => own o | _ => false) then
      match s.readPieces r ts with
      | (.bytes b, s') => (.ok b, s')
      | (.dead k, s') => (.error (.dead k), s')
      | (_, s') => (.error (.remote detail), s')
    else (.error (.remote detail), s)

/-- R216, R238: whether n bytes may be written to local memory that own allows. -/
def State.checkIn (s : State) (own : Nat → Bool) (acc : Acc) (detail va n : Nat) : Except Halt Unit :=
  match s.translateSpan .device acc va n with
  | .error (c, a) => .error (.fault acc c a)
  | .ok ts =>
    if ts.all fun p => (match p.1 with | .mem .loc o => own o | _ => false) then .ok () else .error (.remote detail)

/-- Writes bytes whose pages have been checked. -/
def State.storeAt (s : State) (r : Reader) (va : Nat) (bs : List Byte) : State := (s.vwrite r .device .write va bs).2

/-- Local memory of a cluster; of a C-die (R228, R243). -/
def ownCluster (e : ClusterId) (o : Nat) : Bool := o / 2 ^ 25 == e.index
def ownDie (cdie : Nat) (o : Nat) : Bool := o / 2 ^ 29 == cdie

/-- R241, R262: the local memory behind ranges of virtual addresses, with its bytes; what does not translate is left out. -/
def State.viewOf (s : State) (ranges : List (Nat × Nat)) : List (Nat × List Byte) :=
  ranges.flatMap fun r =>
    match s.translateSpan .device .read r.1 r.2 with
    | .ok ts => ts.filterMap fun p => (match p.1 with
      | .mem .loc o => some (o, s.mem.loc.read o p.2)
      | _ => none)
    | .error _ => []

/-- R241, R262: the local memory of a view is as it was. -/
def State.viewHolds (s : State) (v : List (Nat × List Byte)) : Bool := v.all fun p => s.mem.loc.read p.1 p.2.length == p.2

/-- Runs a step over a list, up to the first stop, and gathers what it answers. -/
def gatherAll {α β : Type} (f : α → State → Except Halt β × State) : List α → State → Except Halt (List β) × State
  | [], s => (.ok [], s)
  | x :: xs, s =>
    match f x s with
    | (.error h, s') => (.error h, s')
    | (.ok y, s') =>
      match gatherAll f xs s' with
      | (.error h, s'') => (.error h, s'')
      | (.ok ys, s'') => (.ok (y :: ys), s'')

/-- The checks of a list, up to the first that fails. -/
def checkAll : List (Except Halt Unit) → Except Halt Unit
  | [] => .ok ()
  | .ok () :: rest => checkAll rest
  | .error h :: _ => .error h

def stRemote (detail : Nat) : Ending := ⟨stRemoteOperand, detail⟩

/-- R257, R367, R373, R389: what a stop makes of an operation: it is suspended, or it ends. -/
def State.haltEnd (s : State) (h : Halt) : (Option Suspension × Option Ending) × State :=
  match h with
  | .fault acc cls va =>
    if suspends cls then ((some (suspension cls acc va), none), s)
    else
      let e := s.faultEnding cls va
      ((none, some e.1), e.2)
  | .dead r => ((none, some ⟨stDeviceError, r % 65536⟩), s)
  | .remote d => ((none, some (stRemote d)), s)

def State.countSuspension (s : State) (e : ClusterId) : State :=
  s.modCluster e fun c => { c with suspensions := bump c.suspensions 1 }

/-! ## Table banks (R187, R188) -/

/-- The bank an engine's next operation binds to: the one that is active, or the other while the engine has not swapped. -/
def Banked.bankOf (b : Banked) (u : TableUser) : Bool :=
  match b.reload with
  | some r => if r.written && r.left.contains u then !b.active else b.active
  | none => b.active

def Banked.contents (b : Banked) (k : Bool) : Option (List Nat) := if k then b.bank1 else b.bank0

/-! ## Starting and recording -/

/-- R108: the carrel of a queue that issued an operation can hold its completion. -/
def State.mayStart (s : State) (w : Work) : Bool :=
  match w.issuer with
  | .thread _ _ _ => true
  | .debug _ => true
  | .queue q => (match s.queue? q with | some x => !s.carrelFull x.carrel | none => true)

/-- n free values (log 11). -/
def State.freshes (s : State) : Nat → List Word64 × State
  | 0 => ([], s)
  | n + 1 =>
    let f := s.fresh
    let r := f.2.freshes n
    (f.1 :: r.1, r.2)

/-- R231: the status record. TILE_WAIT, FENCE_WAIT, STREAM_STALL and CYCLES are free values (log 11). -/
def matrixRecord (e : Ending) (c : Counts) (times : List Word64) : List Byte :=
  leBytes 4 (e.status + e.detail % 32768 * 2 ^ 16 + 2 ^ 31) ++ leBytes 4 c.aflags.toNat ++ leBytes 4 c.invalid ++ leBytes 4 c.sat
    ++ leBytes 4 c.flush ++ leBytes 4 c.alias_ ++ leBytes 8 c.unitsSkipped.toNat ++ leBytes 8 c.borrowUnits.toNat
    ++ leBytes 8 c.imbalance.toNat ++ leBytes 8 c.windowStall.toNat ++ leBytes 8 c.groupsSkipped.toNat
    ++ times.flatMap fun t => leBytes 8 t.toNat

/-- R230: writes the record at an address, 0 for none. -/
def State.recordAt (s : State) (r : Reader) (owner : Requester) (va : Nat) (bs : List Byte) : Wrote × State :=
  if va == 0 then (.ok, s) else s.writeStatus r owner va bs

/-- R230: what becomes of an operation: it ends, with its record written or without; it waits for a fault of the record; or, held, for
mastering (R80). -/
inductive Closing
  | done (written : Bool) (e : Ending) (s : State)
  | waits (x : Suspension) (s : State)
  | held

def State.close (s : State) (r : Reader) (owner : Requester) (va : Nat) (e : Ending) (bs : List Byte) : Closing :=
  if s.recordHeld va bs.length then .held
  else
    match s.recordAt r owner va bs with
    | (.ok, s') => .done true e s'
    | (.failed k, s') => .done false ⟨stDeviceError, k % 65536⟩ s'
    | (.stop c a, s') =>
      if suspends c then .waits (suspension c .write a) s'
      else
        let f := s'.faultEnding c a
        .done false f.1 f.2

/-- R229: RESULT_LO and RESULT_HI of an item: AFLAGS and SAT_COUNT. -/
def State.endCounted (s : State) (w : Work) (e : Ending) (c : Counts) : State :=
  s.endWork w e.status e.detail (c.aflags.setWidth 32) (BitVec.ofNat 32 c.sat)

/-! ## Accumulator words (R198, R203, R205, R224) -/

def accPlace? (acc : List AccPlace) (row col word : Nat) : Option AccPlace :=
  acc.find? fun p => p.row == row && p.col == col && p.word == word

/-- R224: an undefined word reads as a free value, here by its place. -/
def placeFree (ctr row col word : Nat) : Word64 := Config.freeValue (ctr + ((row * 128 + col) * 8 + word))

/-- A word of a cell with its saturation bit. -/
def accWord (ctr : Nat) (acc : List AccPlace) (row col word : Nat) : Nat × Bool :=
  match accPlace? acc row col word with
  | some p => (p.value.toNat, p.sat)
  | none =>
    let f := placeFree ctr row col word
    (f.toNat % 2 ^ 32, f.getLsbD 32)

/-- What a cell holds for output (r, c) of a tile. -/
def accRead (ctr : Nat) (acc : List AccPlace) (g : Region) (r c : Nat) : AccValue :=
  match g.words with
  | [w] =>
    let v := accWord ctr acc (g.row + r) (g.col + c) w
    ⟨v.1, 0, v.2⟩
  | w :: x :: _ =>
    ⟨(accWord ctr acc (g.row + r) (g.col + c) w).1, (accWord ctr acc (g.row + r) (g.col + c) x).1, false⟩
  | [] => ⟨0, 0, false⟩

/-- Writes what a cell holds for output (r, c) of a tile. -/
def accWrite (acc : List AccPlace) (g : Region) (fmt shape r c : Nat) (v : AccValue) : List AccPlace :=
  acc.map fun p =>
    if p.row == g.row + r && p.col == g.col + c && g.words.contains p.word then
      { p with value := BitVec.ofNat 32 (if g.words.head? == some p.word then v.hi else v.lo), sat := v.sat, fmt := fmt, shape := shape }
    else p

/-- R204: sets every word of a footprint to zero. -/
def accClear (acc : List AccPlace) (g : Region) (fmt shape : Nat) : List AccPlace :=
  (acc.filter fun p => !g.has p.row p.col p.word)
    ++ g.places.map fun p => ⟨p.1, p.2.1, p.2.2, 0#32, false, fmt, shape⟩

/-- R205: output (r, c)'s words were last written under another format or shape, or by no operation. -/
def accForeign (acc : List AccPlace) (g : Region) (fmt shape r c : Nat) : Bool :=
  g.words.any fun w =>
    match accPlace? acc (g.row + r) (g.col + c) w with
    | some p => p.fmt != fmt || p.shape != shape
    | none => true

/-- Every undefined word a state can read at once takes one index: the next free value comes after them. -/
def State.pastPlaces (s : State) : State := { s with freeCtr := s.freeCtr + 131072 }

end Sys2Proof.Machine
end

