-- ==== Sys2Proof/Machine/Matrix.lean ====
section
/-! DEFINITION. Matrix operations: descriptors and their check (R186, R206, R232 to R239, R242), streaming (R193, R194, R236, R244 to
R246, R249), the end of an operation with the range monitor (R230, R250, R252, R253), pre-emption and spill (R254 to R257). -/

namespace Sys2Proof.Machine

/-- R370: REQ_KIND of a matrix engine, in its own cluster's memory; matrixWriter writes wherever records and bits go. -/
def matrixReader : Reader := ⟨1, none, none⟩
def matrixWriter (e : ClusterId) : Reader := matrixReader.on (.c, e.cdie)

/-! ## The descriptor (R186, R206, R233, R234, R239) -/

structure Operand where
  base       : Nat
  pitch      : Nat
  scaleBase  : Nat
  scalePitch : Nat
  scaled     : Bool
  fmt        : Nat

structure MatDesc where
  cls     : Nat
  a       : Operand
  b       : Operand
  rnd     : Nat
  subn    : Nat
  group   : Nat
  stochBin : Bool
  sparse  : Bool
  release : Bool
  stepEnd : Bool
  m       : Nat
  n       : Nat
  layer   : Nat
  k       : Nat
  slot    : Nat
  shape   : Nat
  fmt     : Nat
  add     : Bool
  /-- the block at 0x50: BITMAP, or OUT of class INPUT -/
  block   : Nat
  blockPitch : Nat
  satmode : Nat
  skip    : Nat
  beta    : Int
  binOut  : Nat
  binPitch : Nat
  status  : Nat

/-- R239. -/
def operandAt (d : List Byte) (off : Nat) (scaled : Bool) (fmt : Nat) : Operand :=
  ⟨descAddr d off, get32 d (off + 8), descAddr d (off + 0xC), get32 d (off + 0x14), scaled, fmt⟩

def MatDesc.of (d : List Byte) : MatDesc :=
  let c := get32 d 0
  let acc := get32 d 0xC
  let w := get32 d 0x6C
  { cls := field c 5 4
    a := operandAt d 0x10 (bitAt c 14) (field c 9 6)
    b := operandAt d 0x30 (bitAt c 15) (field c 13 10)
    rnd := field c 17 16
    subn := field c 19 18
    group := 4 * 2 ^ field c 21 20
    stochBin := bitAt c 22
    sparse := bitAt c 23
    release := bitAt c 24
    stepEnd := bitAt c 25
    m := get8 d 4
    n := get8 d 5
    layer := get16 d 6
    k := get32 d 8
    slot := field acc 4 0
    shape := field acc 6 5
    fmt := field acc 8 7
    add := bitAt acc 9
    block := descAddr d 0x50
    blockPitch := get32 d 0x58
    satmode := field w 16 16
    skip := field w 18 17
    beta := scaleOf (field w 31 24)
    binOut := descAddr d 0x78
    binPitch := get32 d 0x80
    status := descAddr d 0x88 }

/-- R180, R183: the Flutter fields of a product-control block at 0x60, with the table as loaded. -/
def streamsAt (d : List Byte) (table : List Nat) : Streams :=
  ⟨get64 d 0x60, get32 d 0x68 + get16 d 0x6C * 2 ^ 32, field (get32 d 0x6C) 20 19, descAddr d 0x70, table⟩

/-- The path, by R158, R178 and R242. -/
def MatDesc.path (x : MatDesc) : Option (Path × Nat) :=
  if x.cls == 0 then some (.conventional, 0) else pathOf x.a.fmt x.b.fmt x.stochBin

def MatDesc.onPath (x : MatDesc) (p : Path) : Bool :=
  match x.path with
  | some q => q.1 == p
  | none => false

/-- R186: the operation uses Flutter bits. -/
def MatDesc.flutters (x : MatDesc) : Bool := x.rnd == stoch || x.onPath .stochastic

/-- R127, R242: the combination of class, formats, path, scales and rounding is legal. -/
def MatDesc.legal (x : MatDesc) : Bool :=
  let fmts := fmtOk x.a.fmt && fmtOk x.b.fmt
  let scales := (!x.a.scaled || scalable x.a.fmt) && (!x.b.scaled || scalable x.b.fmt)
  let has32 := x.a.fmt == fL32 || x.b.fmt == fL32
  fmts && scales && x.rnd != rtz && x.rnd != 3 && x.subn != 3 &&
    (match x.cls with
    | 0 => isLF x.a.fmt && isLF x.b.fmt && !x.a.scaled && !x.b.scaled && !x.sparse && !x.stochBin && x.rnd == rne
    | 1 => has32 && !x.stochBin && x.onPath .log
    | 2 => !has32 && x.path.isSome && (x.onPath .log || x.group == 16)
    | _ => false)

/-- R195, R203, R206, R242: ACC_CONTROL is legal. -/
def MatDesc.accLegal (x : MatDesc) : Bool :=
  x.cls == 0 ||
    ((region? x.shape x.slot x.fmt).isSome && (x.cls != 1 || x.fmt == 1)
      && (x.fmt != 2 || ((x.onPath .serial || x.onPath .binary) && !x.a.scaled && !x.b.scaled)))

/-- R233: the largest M and N. -/
def MatDesc.limits (x : MatDesc) : Nat × Nat :=
  if x.cls == 0 then (255, 255)
  else match region? x.shape x.slot x.fmt with
    | some g => (g.rows, g.cols)
    | none => (255, 255)

/-- R237, R239: an operand block's bad fields. -/
def operandBad (d : List Byte) (off : Nat) (o : Operand) (k : Nat) : List (Nat × Bool) :=
  [(off, o.base % 4 != 0), addrBad d off,
   (off + 8, o.pitch % 4 != 0 || o.pitch < ceilDiv (k * fmtWidth o.fmt) 8), addrBad d (off + 0xC),
   (off + 0x14, o.scaled && (o.scalePitch % 4 != 0 || o.scalePitch < ceilDiv k 32))] ++ [gapBad d (off + 0x18) (off + 0x20)]

/-- R183, R186: the product-control block's bad fields. flutters: the operation uses Flutter bits; serial: the bit-serial path. -/
def productBad (d : List Byte) (flutters serial : Bool) : List (Nat × Bool) :=
  let w := get32 d 0x6C
  let mode := field w 20 19
  [(0x6C, field w 23 21 != 0 || (serial && field w 18 17 == 3) || (flutters && mode == 3)),
   (0x70, flutters && mode == 2 && descAddr d 0x70 % 64 != 0), addrBad d 0x70,
   (0x74, flutters && mode != 2 && get32 d 0x74 != 0), addrBad d 0x78, (0x84, get32 d 0x84 != 0)]

/-- R232: the offset of the first bad field of a matrix-operation descriptor. -/
def matBad (d : List Byte) : Option Nat :=
  let x := MatDesc.of d
  leastBad (
    [(0, descKind d != 1 || field (get32 d 0) 31 26 != 0 || 16 < x.group || !x.legal),
     (4, x.m == 0 || x.n == 0 || x.limits.1 < x.m || x.limits.2 < x.n),
     (8, x.k == 0 || 2 ^ 26 < x.k),
     (0xC, field (get32 d 0xC) 31 10 != 0 || !x.accLegal)]
    ++ operandBad d 0x10 x.a x.k ++ operandBad d 0x30 x.b x.k
    ++ (if x.cls == 0 then
        [(0x50, x.block % 4 != 0), addrBad d 0x50, (0x58, x.blockPitch % 4 != 0 || x.blockPitch < 4 * x.n)]
      else if x.sparse then
        [addrBad d 0x50, (0x58, x.blockPitch % 4 != 0 || x.blockPitch < ceilDiv (ceilDiv x.k 16) 8)]
      else [])
    ++ [(0x5C, get32 d 0x5C != 0)]
    ++ productBad d x.flutters (x.onPath .serial)
    ++ [(0x80, x.onPath .stochastic && x.binOut != 0 && (x.binPitch % 4 != 0 || x.binPitch < ceilDiv x.k 8))]
    ++ tailBad d 0xC0)

/-! ## Footprints (R203, R208, R255) -/

/-- The footprint of a queue entry: the tiles of a matrix operation, a drain or a vector read (R221). -/
def footprint (d : List Byte) : List Region :=
  if descKind d == 1 then
    let x := MatDesc.of d
    if x.cls == 0 then [] else (region? x.shape x.slot x.fmt).toList
  else if descKind d == 2 then
    let w := get32 d 0x10
    (List.range (field w 23 21 + 1)).filterMap fun i => region? (field w 6 5) (field w 4 0 + i) (field w 8 7)
  else if descKind d == 3 && readsAccumulator d then
    let w := get32 d 0x10
    (region? (field w 6 5) (field w 4 0) (field w 8 7)).toList
  else []

/-- R225: the region that a DEBUG_READ's TILE field names. -/
def debugRegion? (pl : List Byte) : Option Region := region? (field (get16 pl 8) 6 5) (field (get16 pl 8) 4 0) (field (get16 pl 8) 8 7)

def Work.isDebug (w : Work) : Bool :=
  match w.issuer with
  | .debug _ => true
  | .queue _ => false
  | .thread _ _ _ => false

/-- The footprint of an entry of the queue; a DEBUG_READ's is its tile (R208). -/
def Work.footprint (w : Work) : List Region := if w.isDebug then (debugRegion? w.desc).toList else Machine.footprint w.desc

def regionsMeet (a b : List Region) : Bool := a.any fun x => b.any fun y => x.meets y

def inRegions (gs : List Region) (p : AccPlace) : Bool := gs.any fun g => g.has p.row p.col p.word

/-- R256: an entry's footprint meets places that the URGENT side holds. -/
def meetsHeld (m : MatrixEngine) (w : Work) : Bool :=
  w.footprint.any fun g => m.held.any fun p => g.has p.1 p.2.1 p.2.2

/-- R208, R221: an entry that stands for a vector instruction's read of a tile. -/
def Cluster.isRead (c : Cluster) (w : Work) : Bool :=
  c.vector.queue.any (fun x => x.uid == w.uid) || (match c.vector.active with | some v => v.work.uid == w.uid | none => false)

/-- Drains have KIND 2; every other kind is checked as a matrix operation (R234). -/
def isDrain (d : List Byte) : Bool := descKind d == 2

/-- R254, R256: the entry that may start next. While an operation is pre-empted only URGENT entries start; a NORMAL entry waits for held
places. -/
def MatrixEngine.head? (m : MatrixEngine) : Option Work :=
  match m.queue with
  | [] => none
  | w :: _ => if !w.urgent && (m.preempted.isSome || meetsHeld m w) then none else some w

/-! ## Spill (R223, R255) -/

/-- R223, R255: spills the pre-empted operation's footprint; the spill area's bytes become undefined. -/
def State.spill (s : State) (e : ClusterId) (gs : List Region) : State :=
  let base := e.index * 2 ^ 25
  let st := (s.mem.loc.forget (base + 0xFD0000) (base + 0x1000000) s.freeCtr)
  let s := { s with freeCtr := s.freeCtr + 1 }
  let s := s.setStore .loc (st.heal fun p => base + 0xFD0000 ≤ p * 8 && p * 8 < base + 0x1000000)
  (s.modMatrix e fun m => { m with
    spilled := some (m.acc.filter (inRegions gs))
    acc := m.acc.filter fun p => !inRegions gs p
    held := m.held ++ (gs.flatMap Region.places).filter fun p => !m.held.contains p }).modCluster e fun c => { c with spills := bump c.spills 1 }

/-- R255: an URGENT entry about to start makes the engine spill a pre-empted footprint that it meets. -/
def State.spillFor (s : State) (e : ClusterId) (w : Work) : State :=
  match s.cluster? e with
  | none => s
  | some c =>
    match c.matrix.preempted, c.matrix.spilled with
    | some op, none =>
      if regionsMeet w.footprint (footprint op.work.desc) then s.spill e (footprint op.work.desc) else s
    | _, _ => s

/-! ## Loading the bitmap and the stream table (R183, R244) -/

/-- R183: how many words the operation's table has. -/
def MatDesc.tableWords (x : MatDesc) : Nat := (if x.rnd == stoch then 16384 else 0) + bit (x.onPath .stochastic)

/-- R183: loads a stream table of n words, where the descriptor names one. -/
def State.loadTable (s : State) (e : ClusterId) (d : List Byte) (uses : Bool) (n : Nat) : Except Halt (List Nat) × State :=
  let t := streamsAt d []
  if uses && t.mode == 2 then
    match s.fetchIn matrixReader (ownCluster e) 6 t.arg (4 * n) with
    | (.ok bs, s') => (.ok ((chunks 4 n bs).map leNat), s')
    | (.error h, s') => (.error h, s')
  else (.ok [], s)

/-- R183: aliases of a loaded table. -/
def Counts.noteAliases (c : Counts) (table : List Nat) : Counts :=
  let n := aliases [] table
  if n == 0 then c else { c with aflags := c.aflags ||| 0x10#16, alias_ := min (c.alias_ + n) 0xFFFFFFFF }

def State.antilogBank (s : State) (k : Bool) : Option (List Nat) := s.tables.antilog.contents k

/-- R187, R204, R244: what comes before the first group: the bitmap, the table, the bank, the start of the tile. -/
def State.matOpen (s : State) (e : ClusterId) (op : MatrixOp) : Except Halt MatrixOp × State :=
  let d := op.work.desc
  let x := MatDesc.of d
  let nb := ceilDiv x.n 16
  match gatherAll (fun cb s => s.fetchIn matrixReader (ownCluster e) 4 (x.block + cb * x.blockPitch)
      (ceilDiv (ceilDiv x.k 16) 8)) (if x.sparse then List.range nb else []) s with
  | (.error h, s) => (.error h, s)
  | (.ok bitmap, s) =>
    match s.loadTable e d x.flutters x.tableWords with
    | (.error h, s) => (.error h, s)
    | (.ok table, s) =>
      let s := match region? x.shape x.slot x.fmt, x.add with
        | some g, false => s.modMatrix e fun m => { m with acc := accClear m.acc g x.fmt x.shape }
        | _, _ => s
      (.ok { op with
        added := List.replicate nb 0
        bank := s.tables.antilog.bankOf (.matrix e)
        bitmap := bitmap
        table := table
        counts := op.counts.noteAliases table }, s)

/-! ## One group (R193, R194, R236, R237, R245) -/

/-- R244: block (cb, pb) is present. -/
def blockPresent (x : MatDesc) (op : MatrixOp) (cb pb : Nat) : Bool :=
  !x.sparse || elementOf (op.bitmap.getD cb []) fB1 pb == 1

/-- The codes of some positions of a row of A or a column of B, with their block scale. -/
structure Slice where
  codes : List Nat
  scale : Int

/-- R137, R237: reads positions k0 to k0 + n - 1 of row or column i of an operand; they lie in one scale block. -/
def State.fetchSlice (s : State) (own : Nat → Bool) (r : Reader) (o : Operand) (detail i k0 n : Nat) :
    Except Halt Slice × State :=
  let w := fmtWidth o.fmt
  let lo := k0 * w / 8
  match s.fetchIn r own detail (o.base + i * o.pitch + lo) (ceilDiv ((k0 + n) * w) 8 - lo) with
  | (.error h, s) => (.error h, s)
  | (.ok bs, s) =>
    let v := leNat bs
    let codes := (List.range n).map fun j => (v >>> ((k0 + j) * w - 8 * lo)) % 2 ^ w
    if o.scaled then
      match s.fetchIn r own (detail + 2) (o.scaleBase + i * o.scalePitch + k0 / 32) 1 with
      | (.ok b, s) => (.ok ⟨codes, scaleOf (leNat b)⟩, s)
      | (.error h, s) => (.error h, s)
    else (.ok ⟨codes, 0⟩, s)

/-- A row of A as the cells receive it: log-path operands or whole values, and the scale. -/
structure Streamed where
  nums  : List Num
  ints  : List Int
  scale : Int

/-- R161, R169: decodes a slice for a path; and what it raises. -/
def streamSlice (x : MatDesc) (f : Nat) (sl : Slice) : Streamed × List Ev :=
  if x.onPath .log then
    let ds := sl.codes.map fun c => logOperand f c sl.scale x.subn
    (⟨ds.map fun p => p.1, [], sl.scale⟩, ds.map fun p => if p.2 then .flushed else .none)
  else (⟨[], sl.codes.map (wholeValue f), sl.scale⟩, [])

/-- R178, R182: binarises a slice of row m; its bits, and what it raises. -/
def binariseSlice (bank : Option (List Nat)) (x : MatDesc) (t : Streams) (e : ClusterId) (m k0 : Nat) (sl : Slice) :
    List Nat × List Ev :=
  let word := if x.rnd == stoch then 16384 else 0
  let r := sl.codes.mapIdx fun j c =>
    let d := decodeNum x.a.fmt c sl.scale x.subn
    let u := t.draw (streamId 2 e.cdie e.cluster 0 0) word 0 (m * 16 * ceilDiv x.k 16 + k0 + j)
    let b := binarise bank x.beta u d.1
    (b.1, if b.2 == .none && d.2 then Ev.flushed else b.2)
  (r.map fun p => p.1, r.map fun p => p.2)

/-- Where the B1 bits of a chunk of row m go, and how many bytes they take. -/
def MatDesc.bitsAt (x : MatDesc) (m k0 n : Nat) : Nat × Nat := (x.binOut + m * x.binPitch + k0 / 8, ceilDiv n 8)

/-- R178, R373: the pages that a group's B1 bits go to are translated before any of them is written. -/
def State.bitsCheck (s : State) (x : MatDesc) (k0 n : Nat) : Except Halt Unit :=
  if !x.onPath .stochastic || x.binOut == 0 then .ok ()
  else checkAll ((List.range x.m).map fun m =>
    match s.translateSpan .device .write (x.bitsAt m k0 n).1 (x.bitsAt m k0 n).2 with
    | .error (c, a) => .error (.fault .write c a)
    | .ok _ => .ok ())

/-- R178: writes the B1 bits of a chunk, row by row, where BIN_OUT asks for them; bits past K are free values (log 4). -/
def State.writeBits (s : State) (e : ClusterId) (x : MatDesc) (k0 : Nat) (rows : List (List Nat)) : Except Halt Unit × State :=
  if !x.onPath .stochastic || x.binOut == 0 then (.ok (), s)
  else
    match gatherAll (fun (r : List Nat × Nat) s =>
        let f := s.fresh
        let n := (x.bitsAt r.2 k0 r.1.length).2
        let v := (r.1.mapIdx fun j b => b * 2 ^ j).foldl (· + ·) 0 + f.1.toNat % 2 ^ (8 * n - r.1.length) * 2 ^ r.1.length
        match f.2.writeRecord (matrixWriter e) (.matrix e) (x.bitsAt r.2 k0 r.1.length).1 (leBytes n v) with
        | (.ok, s') => (.ok (), s')
        | (.stop c a, s') => (.error (.fault .write c a), s')
        | (.failed k, s') => (.error (.dead k), s')) rows.zipIdx s with
    | (.error h, s) => (.error h, s)
    | (.ok _, s) => (.ok (), s)

/-- Row m of A for one group: as the cells receive it, what it raises, and on the stochastic path its B1 bits. -/
def State.rowOfA (s : State) (e : ClusterId) (op : MatrixOp) (x : MatDesc) (k0 n m : Nat) :
    Except Halt (Streamed × List Ev × List Nat) × State :=
  match s.fetchSlice (ownCluster e) matrixReader x.a 0 m k0 n with
  | (.error h, s) => (.error h, s)
  | (.ok sl, s) =>
    if x.onPath .stochastic then
      let b := binariseSlice (s.antilogBank op.bank) x (streamsAt op.work.desc op.table) e m k0 sl
      (.ok (⟨[], b.1.map (wholeValue fB1), x.beta⟩, b.2, b.1), s)
    else
      let y := streamSlice x x.a.fmt sl
      (.ok (y.1, y.2, []), s)

/-- Column n of B for one group; none: its block is empty and is not read. -/
def State.colOfB (s : State) (e : ClusterId) (op : MatrixOp) (x : MatDesc) (k0 cnt n : Nat) :
    Except Halt (Option (Slice × Streamed × List Ev)) × State :=
  if blockPresent x op (n / 16) (k0 / 16) then
    match s.fetchSlice (ownCluster e) matrixReader x.b 1 n k0 cnt with
    | (.error h, s) => (.error h, s)
    | (.ok sl, s) =>
      let d := streamSlice x x.b.fmt sl
      (.ok (some (sl, d.1, d.2)), s)
  else (.ok none, s)

/-- R162 to R171, R192: the group sum of a cell; and what its products raise. -/
def cellSum (bank : Option (List Nat)) (x : MatDesc) (a b : Streamed) : Num × List Ev :=
  if x.onPath .log then
    let ps := List.zipWith (product bank x.satmode x.subn) a.nums b.nums
    let g := groupSum (ps.map fun p => p.1)
    (g.1, ps.map (fun p => p.2) ++ [g.2])
  else
    let c := chunkSum a.ints b.ints
    if x.fmt == 2 then (numOfRat (c : Rat), [])
    else
      let g := chunkNum x.satmode x.subn c (a.scale + b.scale)
      (g.1, [g.2])

/-- R182, R193: adds one group to one cell. -/
def cellAdd (bank : Option (List Nat)) (ctr : Nat) (e : ClusterId) (op : MatrixOp) (x : MatDesc) (g : Region) (m n : Nat)
    (a b : Streamed) (acc : List AccPlace) (c : Counts) : List AccPlace × Counts :=
  let r := cellSum bank x a b
  let lane := 128 * (g.row + m) + g.col + n
  let u := if x.rnd == stoch then
      (streamsAt op.work.desc op.table).draw (streamId 0 e.cdie e.cluster lane x.slot) lane x.slot (op.added.getD (n / 16) 0)
    else 0
  let v := accumulate x.fmt x.rnd x.subn u (accRead ctr acc g m n) r.1
  (accWrite acc g x.fmt x.shape m n v.1, (c.addAll r.2).add v.2)

/-- One group added to every cell that it is streamed to, row by row. -/
def cellsAdd (bank : Option (List Nat)) (ctr : Nat) (e : ClusterId) (op : MatrixOp) (x : MatDesc) (g : Region)
    (as_ : List Streamed) (bs : List (Option Streamed)) (acc : List AccPlace) (c : Counts) : List AccPlace × Counts :=
  as_.zipIdx.foldl (fun acc a =>
    bs.zipIdx.foldl (fun acc b =>
      match b.1 with
      | some y => cellAdd bank ctr e op x g a.2 b.2 a.1 y acc.1 acc.2
      | none => acc) acc) (acc, c)

/-- R175, R176, R246: the streaming times and counters of one chunk; cols are its columns of B, none where the block is empty. Where the
spec is silent (DESIGN CHOICE, log 63): a lane beyond N in a partly used wavefront has 0 units under SKIP 1 and 2, and the plane count under
SKIP 0; a wavefront with no column at all, like one whose block is empty, takes no time and counts no unit, yet stalls at the gate. -/
def chunkCounters (x : MatDesc) (op : MatrixOp) (pb : Nat) (cols : List (Option Slice)) : MatrixOp :=
  let per := (List.range 8).map fun w =>
    let lanes := (List.range 16).map fun i => cols[16 * w + i]?
    if x.n ≤ 16 * w || !blockPresent x op w pb then (0, 0, 0, 0)
    else if x.onPath .serial then
      let us := lanes.map fun l => match l with
        | some (some sl) => laneUnits x.skip x.b.fmt sl.codes
        | _ => if x.skip == 0 then planeCount x.b.fmt else 0
      let t := if x.skip == 0 then planeCount x.b.fmt else chunkTime us
      let total := us.foldl (· + ·) 0
      (t, 16 * planeCount x.b.fmt - total, (us.map fun u => u - t).foldl (· + ·) 0, 16 * t - total)
    else ((match x.path with | some p => p.2 | none => 0), 0, 0, 0)
  let r := streamChunk op.finish (per.map fun p => p.1)
  let sum (f : Nat × Nat × Nat × Nat → Nat) : Nat := (per.map f).foldl (· + ·) 0
  { op with
    finish := (r.1 :: op.finish).take 4
    counts := { op.counts with
      unitsSkipped := bump op.counts.unitsSkipped (sum fun p => p.2.1)
      borrowUnits := bump op.counts.borrowUnits (sum fun p => p.2.2.1)
      imbalance := bump op.counts.imbalance (sum fun p => p.2.2.2)
      windowStall := bump op.counts.windowStall r.2 } }

/-- R205: the group would be added into a word whose last writer was another's, or none. -/
def addsForeign (x : MatDesc) (op : MatrixOp) (g : Region) (acc : List AccPlace) (pb : Nat) : Bool :=
  x.add && (List.range x.n).any fun n =>
    op.added.getD (n / 16) 0 == 0 && blockPresent x op (n / 16) pb
      && (List.range x.m).any fun m => accForeign acc g x.fmt x.shape m n

/-- How a group went. -/
inductive Grouped
  | done (op : MatrixOp) (acc : List AccPlace)
  | halted (h : Halt)
  | foreign

/-- R193, R373: one group: everything it reads is read, and every page its B1 bits go to translated, before anything is written. -/
def State.matGroup (s : State) (e : ClusterId) (op : MatrixOp) (g : Region) (acc : List AccPlace) : Grouped × State :=
  let x := MatDesc.of op.work.desc
  let k0 := op.next * x.group
  let n := min x.group (x.k - k0)
  let pb := k0 / 16
  if addsForeign x op g acc pb then (.foreign, s)
  else
    let any := (List.range (ceilDiv x.n 16)).any fun cb => blockPresent x op cb pb
    let rows := if any || x.onPath .stochastic then List.range x.m else []
    match gatherAll (fun m s => s.rowOfA e op x k0 n m) rows s with
    | (.error h, s) => (.halted h, s)
    | (.ok as_, s) =>
      match gatherAll (fun j s => s.colOfB e op x k0 n j) (List.range x.n) s with
      | (.error h, s) => (.halted h, s)
      | (.ok bs, s) =>
        match s.bitsCheck x k0 n with
        | .error h => (.halted h, s)
        | .ok _ =>
          match s.writeBits e x k0 (as_.map fun a => a.2.2) with
          | (.error h, s) => (.halted h, s)
          | (.ok _, s) =>
            let raised := as_.flatMap (fun a => a.2.1) ++ bs.flatMap fun b => (match b with | some y => y.2.2 | none => [])
            let r := cellsAdd (s.antilogBank op.bank) s.freeCtr e op x g (as_.map fun a => a.1)
              (bs.map fun b => b.map fun y => y.2.1) acc (op.counts.addAll raised)
            let streamed := x.m * (bs.filter Option.isSome).length
            let last := x.k ≤ k0 + n
            let op := { op with
              counts := { r.2 with groupsSkipped := bump r.2.groupsSkipped (g.rows * g.cols - streamed) }
              added := op.added.mapIdx fun cb a => if blockPresent x op cb pb then a + 1 else a }
            let op := if last || (k0 + n) % 16 == 0 then chunkCounters x op pb (bs.map fun b => b.map fun y => y.1) else op
            (.done { op with next := op.next + 1 } r.1, s)

/-! ## The range monitor's counts (R249) -/

/-- R249: bytes of an operand as they stand, without an access of the engine's; none where they cannot be seen. -/
def State.peek (s : State) (va n : Nat) : Option (List Byte) :=
  match s.translateSpan .device .read va n with
  | .error _ => none
  | .ok ts => some (ts.flatMap fun p => match p.1 with
    | .mem sp o => (s.mem.store sp).read o p.2
    | _ => zeros p.2)

def State.peekCode (s : State) (o : Operand) (i k : Nat) : Option Nat :=
  let w := fmtWidth o.fmt
  let lo := k * w / 8
  (s.peek (o.base + i * o.pitch + lo) (ceilDiv ((k + 1) * w) 8 - lo)).map fun bs => (leNat bs >>> (k * w - 8 * lo)) % 2 ^ w

/-- R249: the ten counts of the streamed positions k0 to k1 - 1, which lie in one scale block. -/
def State.blockBins (s : State) (x : MatDesc) (op : MatrixOp) (k0 k1 : Nat) : List Nat :=
  let ks := (List.range (k1 - k0)).map (k0 + ·)
  let add (l r : List Nat) : List Nat := List.zipWith (· + ·) l r
  let zero := List.replicate 5 0
  let inA := ks.filter fun k => (List.range (ceilDiv x.n 16)).any fun cb => blockPresent x op cb (k / 16)
  let a := (List.range x.m).foldl (fun acc m => add acc (monitorBlock x.a.fmt x.subn (inA.filterMap (s.peekCode x.a m)))) zero
  let b := (List.range x.n).foldl (fun acc n =>
    let inB := ks.filter fun k => blockPresent x op (n / 16) (k / 16)
    add acc (monitorBlock x.b.fmt x.subn (inB.filterMap (s.peekCode x.b n)))) zero
  a ++ b

/-- R233, R251: the policy of a LAYER; 0xFFFF names none. -/
def State.policy? (s : State) (layer : Nat) : Option LayerPolicy :=
  if layer == 0xFFFF then none else s.policies.find? fun p => p.layer == layer

/-- R249: counts the scale block that ends with the last group added, or, when the operation ends early, what was streamed of it. -/
def State.monitor (s : State) (op : MatrixOp) (early : Bool) : MatrixOp :=
  let x := MatDesc.of op.work.desc
  let k1 := min x.k (op.next * x.group)
  let whole := k1 % 32 == 0 || k1 == x.k
  if x.cls != 2 || (s.policy? x.layer).isNone || (if early then whole else !whole) || k1 == 0 then op
  else { op with bins := List.zipWith (· + ·) op.bins (s.blockBins x op ((k1 - 1) / 32 * 32) k1) }

/-! ## MATMUL -/

def State.setActive (s : State) (e : ClusterId) (op : Option MatrixOp) : State := s.modMatrix e fun m => { m with active := op }

/-- R241: what an operation reads: A, B, their scales, the bitmap and the stream table. -/
def MatDesc.reads (x : MatDesc) (d : List Byte) : List (Nat × Nat) :=
  let rows (o : Operand) (n : Nat) : List (Nat × Nat) := (List.range n).flatMap fun i =>
    (o.base + i * o.pitch, ceilDiv (x.k * fmtWidth o.fmt) 8) :: (if o.scaled then [(o.scaleBase + i * o.scalePitch, ceilDiv x.k 32)] else [])
  let t := streamsAt d []
  rows x.a x.m ++ rows x.b x.n
    ++ (if x.sparse then (List.range (ceilDiv x.n 16)).map fun cb => (x.block + cb * x.blockPitch, ceilDiv (ceilDiv x.k 16) 8) else [])
    ++ (if x.flutters && t.mode == 2 then [(t.arg, 4 * x.tableWords)] else [])

/-- An operation that will go on later rests, with what it reads as it now stands. -/
def State.restActive (s : State) (e : ClusterId) (op : MatrixOp) : State :=
  s.setActive e (some { op with view := if isDrain op.work.desc then [] else s.viewOf ((MatDesc.of op.work.desc).reads op.work.desc) })

/-- An operation stops. -/
def State.matHalt (s : State) (e : ClusterId) (op : MatrixOp) (h : Halt) : State :=
  let r := s.haltEnd h
  let s := if r.1.1.isSome then r.2.countSuspension e else r.2
  let op := { op with suspended := r.1.1, ended := r.1.2 }
  if op.ended.isSome then s.setActive e (some (s.monitor op true)) else s.restActive e op

/-- R80: rows of B1 bits would go to host memory, which may not be written now. -/
def State.bitsHeld (s : State) (x : MatDesc) : Bool :=
  x.onPath .stochastic && x.binOut != 0
    && (List.range x.m).any fun m => s.recordHeld (x.binOut + m * x.binPitch) (ceilDiv x.k 8)

/-- R254: a NORMAL operation that runs is to be pre-empted at its next group boundary: an URGENT entry has reached the head. -/
def Cluster.preempts (c : Cluster) (op : MatrixOp) : Bool :=
  !op.work.urgent && c.matrix.preempted.isNone && (match c.matrix.queue with | w :: _ => w.urgent | [] => false)

/-- R193, R209: adds up to n groups of the active operation, none beyond a boundary at which it is pre-empted (R254). -/
def State.matRun (e : ClusterId) (g : Region) : Nat → MatrixOp → State → Host.Outcome State Fault Refusal
  | 0, op, s => .next (s.restActive e op)
  | n + 1, op, s =>
    match s.cluster? e with
    | none => .next s
    | some c =>
      let x := MatDesc.of op.work.desc
      if s.bitsHeld x || c.preempts op then .next (s.restActive e op)
      else
        match s.matGroup e op g c.matrix.acc with
        | (.foreign, _) => .fault .addIntoForeignWord
        | (.halted h, s) => .next (s.matHalt e op h)
        | (.done op acc, s') =>
          let s' := s'.modMatrix e fun m => { m with acc := acc }
          let op := s'.monitor op false
          if x.k ≤ op.next * x.group then .next (s'.setActive e (some { op with ended := some ⟨stOk, 0⟩ }))
          -- R241: B1 bits written over what the operation still reads
          else if x.onPath .stochastic && x.binOut != 0 && !s'.viewHolds (s.viewOf (x.reads op.work.desc)) then .fault .operandWritten
          else State.matRun e g n op s'

/-- Goes on with an operation that has left the queue and passed its check. R241: if what it reads has been written since, its result is
undefined. -/
def State.matGo (s : State) (e : ClusterId) (groups : Option Nat) (op : MatrixOp) : Host.Outcome State Fault Refusal :=
  let x := MatDesc.of op.work.desc
  match region? x.shape x.slot x.fmt with
  | none => .next s
  | some g =>
    let total := ceilDiv x.k x.group
    let n := groups.getD total
    if op.added.isEmpty then
      match s.matOpen e op with
      | (.error h, s) => .next (s.matHalt e op h)
      | (.ok op, s) => s.matRun e g n op
    else if s.viewHolds op.view then s.matRun e g n op
    else .fault .operandWritten

def newMatrixOp (w : Work) : MatrixOp :=
  { work := w, next := 0, added := [], counts := Counts.zero, bank := false, bins := List.replicate 10 0, bitmap := [], table := [],
    finish := [], view := [], suspended := none, ended := none }

/-- The engine may work: it is running, and firmware does not hold it (R124). -/
def State.engineFree (s : State) (w : Work) : Bool := s.enginesRun && s.mayStart w

/-- R209, R232, R243: the entry at the head of the queue leaves it. -/
def State.matStart (s : State) (e : ClusterId) (groups : Option Nat) (w : Work) : Host.Outcome State Fault Refusal :=
  let s := s.modMatrix e fun m => { m with queue := m.queue.drop 1 }
  match matBad w.desc with
  | some detail => .next (s.setActive e (some { newMatrixOp w with ended := some ⟨stMalformed, detail⟩ }))
  | none =>
    if (MatDesc.of w.desc).cls == 0 then
      let s := s.powerUp (.conventional e.cdie)
      .next { s with conv := s.conv.modify e.cdie fun u => { u with ops := u.ops ++ [⟨e, w, 0, Counts.zero, [], none, none, false⟩] } }
    else (s.spillFor e w).matGo e groups (newMatrixOp w)

/-- A matrix operation leaves the engine queue, is checked, and streams groups; or the one in progress streams more. -/
def execMatmul (e : ClusterId) (groups : Option Nat) (s : State) : Host.Outcome State Fault Refusal := s.after <|
  match s.cluster? e with
  | none => .next s
  | some c =>
    match c.matrix.active with
    | some op =>
      if isDrain op.work.desc || op.suspended.isSome || op.ended.isSome || !s.enginesRun then .next s
      else s.matGo e groups op
    | none =>
      match c.matrix.head? with
      | none => .next s
      | some w => if isDrain w.desc || w.isDebug || c.isRead w || !s.engineFree w then .next s else s.matStart e groups w

/-! ## The layer's choice (R250, R252, R253) -/

/-- R251: an allowed mask's formats, narrow to wide. -/
def allowedFormats (mask : Nat) : List Nat :=
  ([(0, fL5), (1, fL8), (2, fL12), (3, fL16)].filter fun p => bitAt mask p.1).map fun p => p.2

/-- R252: the elements a format loses, of five bins. -/
def lossOf (bins : List Nat) (f : Nat) : Nat :=
  let from_ := if f == fL5 then 1 else if f == fL8 then 2 else if f == fL12 then 3 else 4
  (bins.drop from_).foldl (· + ·) 0

/-- R252: the candidate of one role. -/
def candidate (bins : List Nat) (mask limit current : Nat) : Nat :=
  let total := bins.foldl (· + ·) 0
  let fs := allowedFormats mask
  if total == 0 then current
  else
    match fs.find? fun f => lossOf bins f * 65536 ≤ limit * total with
    | some f => f
    | none => fs.getLast?.getD current

/-- R252: one role's history and choice; newest entry last. L5, L8, L12 and L16 rise in width as in format code. -/
def evaluate (bins hist : List Nat) (mask limit steps current : Nat) : List Nat × Nat :=
  let hist := (hist ++ [candidate bins mask limit current])
  let last := hist.drop (hist.length - steps)
  (last, last.foldl max 0)

/-- R250: the totals with an operation's counts. -/
def LayerPolicy.addBins (p : LayerPolicy) (bins : List Nat) : LayerPolicy :=
  { p with totals := List.zipWith (· + ·) p.totals (bins ++ List.replicate (10 - bins.length) 0) }

/-- R252: evaluates a layer. -/
def LayerPolicy.evaluated (p : LayerPolicy) : LayerPolicy :=
  let w := get32 p.bytes 0
  let steps := field w 23 16
  let limit := get16 p.bytes 4
  let a := evaluate (p.totals.take 5) p.histA (field w 11 8) limit steps p.curA
  let b := evaluate (p.totals.drop 5) p.histB (field w 15 12) limit steps p.curB
  { p with histA := a.1, curA := a.2, histB := b.1, curB := b.2, evals := p.evals + 1 }

/-- R253: the choice record. -/
def LayerPolicy.record (p : LayerPolicy) : List Byte :=
  leBytes 4 (p.curA + 16 * p.curB) ++ leBytes 4 p.evals ++ p.totals.flatMap (leBytes 8) ++ zeros 8

/-- R250: an operation's counts go to its layer; STEP_END evaluates the layer and writes its choice record. A record that cannot be
written is lost (DESIGN CHOICE, log 30). -/
def State.monitorEnd (s : State) (owner : Requester) (layer : Nat) (bins : List Nat) (stepEnd : Bool) : State :=
  match s.policy? layer with
  | none => s
  | some p =>
    let p := p.addBins bins
    let put (p : LayerPolicy) (s : State) : State := { s with policies := updIf (fun q => q.layer == layer) (fun _ => p) s.policies }
    if stepEnd then
      let p := p.evaluated
      let s := put { p with totals := List.replicate 10 0 } s
      let r := s.freeReader
      (r.2.writeRecord r.1 owner (descAddr p.bytes 8) p.record).2
    else put p s

/-- R80: the choice record would go to host memory, which may not be written now. -/
def State.choiceHeld (s : State) (layer : Nat) (stepEnd : Bool) : Bool :=
  match s.policy? layer with
  | none => false
  | some p => stepEnd && s.recordHeld (descAddr p.bytes 8) p.record.length

/-! ## The end of an entry -/

/-- R256: an URGENT entry with RELEASE has ended: the held places are released. -/
def MatrixEngine.released (m : MatrixEngine) (w : Work) : MatrixEngine :=
  if w.urgent && bitAt (get32 w.desc 0) 24 then { m with held := [] } else m

/-- The entry, active or pre-empted, leaves the engine and completes. -/
def State.matDone (s : State) (e : ClusterId) (op : MatrixOp) (x : Ending) : State :=
  let other (o : MatrixOp) : Bool := o.work.uid != op.work.uid
  ((s.modMatrix e fun m => { m with active := m.active.filter other, preempted := m.preempted.filter other }.released op.work).modCluster e
    fun c => { c with matrixOps := bump c.matrixOps 1 }).endCounted op.work x op.counts

/-- R230, R231: writes the record of the active entry, which has ended, and completes it. -/
def State.matFinish (s : State) (e : ClusterId) (op : MatrixOp) (x : Ending) : State :=
  let f := s.freshes 4
  match f.2.close (matrixWriter e) (.matrix e) (descAddr op.work.desc 0x88) x (matrixRecord x op.counts f.1) with
  | .waits y s => (s.setActive e (some { op with suspended := some y })).countSuspension e
  | .held => s.setActive e (some { op with ended := some x })
  | .done _ x s => s.matDone e op x

/-- R250: the counts of an operation that has ended go to its layer, once its choice record may be written. -/
def State.matCounted (s : State) (e : ClusterId) (op : MatrixOp) (x : Ending) : Option State :=
  let d := MatDesc.of op.work.desc
  if isDrain op.work.desc || x.status == stMalformed || op.bins.isEmpty then some s
  else if s.choiceHeld d.layer d.stepEnd then none
  else some (s.monitorEnd (.matrix e) d.layer op.bins d.stepEnd)

/-- R230, R250: an entry that was pre-empted ends as it stands. -/
def State.preemptedEnd (s : State) (e : ClusterId) (op : MatrixOp) (x : Ending) : State :=
  match s.matCounted e op x with
  | none => s.modMatrix e fun m => { m with preempted := some { op with ended := some x } }
  | some s =>
  let op := { op with bins := [] }
  let f := s.freshes 4
  match f.2.close (matrixWriter e) (.matrix e) (descAddr op.work.desc 0x88) x (matrixRecord x op.counts f.1) with
  | .waits y s => s.modMatrix e fun m => { m with preempted := some { op with suspended := some y, ended := some x } }
  | .held => s.modMatrix e fun m => { m with preempted := some { op with ended := some x } }
  | .done _ x s => s.matDone e op x

/-- The active entry, a drain or not, once it has ended and waits for no fault. -/
def State.matEnded (s : State) (e : ClusterId) (drain : Bool) : Option (MatrixOp × Ending) :=
  match s.cluster? e with
  | none => none
  | some c =>
    match c.matrix.active with
    | none => none
    | some op =>
      if isDrain op.work.desc != drain || op.suspended.isSome then none
      else op.ended.map fun x => (op, x)

/-- R230, R250: the end of a matrix operation. -/
def execMatmulEnd (e : ClusterId) (s : State) : Host.Outcome State Fault Refusal := s.after <|
  match s.matEnded e false with
  | none => .next s
  | some (op, x) =>
    .next ((s.matCounted e op x).elim s fun s => s.matFinish e { op with bins := [] } x)

/-! ## Pre-emption (R254 to R256) -/

/-- R254, R255, R257: an URGENT entry at the head pre-empts the NORMAL operation that runs or is suspended, be it before its record. -/
def execPreemption (e : ClusterId) (s : State) : Host.Outcome State Fault Refusal := s.after <|
  match s.cluster? e with
  | none => .next s
  | some c =>
    match c.matrix.active, c.matrix.queue with
    | some op, w :: _ =>
      if !w.urgent || op.work.urgent || (op.ended.isSome && op.suspended.isNone) || c.matrix.preempted.isSome then .next s
      else
        let s := (s.modMatrix e fun m => { m with active := none, preempted := some op }).modCluster e fun c =>
          { c with preemptions := bump c.preemptions 1 }
        .next (s.spillFor e w)
    | _, _ => .next s

/-- R256: the pre-empted operation comes back, refilled, once no URGENT entry is queued or runs and its places are released. -/
def execPreemptedResume (e : ClusterId) (s : State) : Host.Outcome State Fault Refusal := s.after <|
  match s.cluster? e with
  | none => .next s
  | some c =>
    match c.matrix.preempted with
    | none => .next s
    | some op =>
      if c.matrix.active.isSome || c.matrix.queue.any (fun w => w.urgent) || (c.matrix.spilled.isSome && !c.matrix.held.isEmpty)
        || !s.enginesRun then .next s
      else
        let gs := footprint op.work.desc
        .next (s.modMatrix e fun m => { m with
          active := some op
          preempted := none
          spilled := none
          acc := match m.spilled with
            | some l => (m.acc.filter fun p => !inRegions gs p) ++ l
            | none => m.acc })

end Sys2Proof.Machine
end

