-- ==== Sys2Proof/Machine/Drain.lean ====
section
/-! DEFINITION. Drains (R213 to R219, R235), the conventional unit (R37, R243), DEBUG_READ (R225). -/

namespace Sys2Proof.Machine

/-! ## The drain descriptor (R215, R217, R235) -/

structure DrainDesc where
  slot     : Nat
  shape    : Nat
  fmt      : Nat
  dst      : Nat
  rnd      : Nat
  subn     : Nat
  scaleMode : Nat
  rowstat  : Nat
  tiles    : Nat
  maskEn   : Bool
  maskInv  : Bool
  scaled   : Bool
  pitch    : Nat
  dstVa    : Nat
  scaleVa  : Nat
  scalePitch : Nat
  colBase  : Nat
  statVa   : Nat
  maskVa   : Nat
  maskPitch : Nat

def DrainDesc.of (d : List Byte) : DrainDesc :=
  let w := get32 d 0x10
  { slot := field w 4 0
    shape := field w 6 5
    fmt := field w 8 7
    dst := field w 12 9
    rnd := field w 14 13
    subn := field w 16 15
    scaleMode := field w 18 17
    rowstat := field w 20 19
    tiles := field w 23 21 + 1
    maskEn := bitAt w 24
    maskInv := bitAt w 25
    scaled := bitAt w 26
    pitch := get32 d 0x14
    dstVa := descAddr d 0x18
    scaleVa := descAddr d 0x20
    scalePitch := get32 d 0x28
    colBase := get32 d 0x2C
    statVa := descAddr d 0x30
    maskVa := descAddr d 0x38
    maskPitch := get32 d 0x40 }

/-- The region of tile i of the drain. -/
def DrainDesc.tile (x : DrainDesc) (i : Nat) : Option Region := region? x.shape (x.slot + i) x.fmt

/-- Rows and columns of a tile of the drain's shape. -/
def DrainDesc.size (x : DrainDesc) : Nat × Nat :=
  match x.shape with
  | 0 => (128, 128)
  | 1 => (128, 64)
  | _ => (64, 64)

/-- R232: the offset of the first bad field of a drain descriptor. -/
def drainBad (d : List Byte) : Option Nat :=
  let x := DrainDesc.of d
  let wt := x.size.2
  let scaleOk := !x.scaled || (scalable x.dst && (x.scaleMode == 0 || x.scaleMode == 2 || (x.scaleMode == 3 && narrow x.dst)))
  leastBad (
    [(0, (get32 d 0) % 2 ^ 24 != 2 || 2 ^ 25 ≤ get32 d 0)] ++ [gapBad d 4 0x10]
    ++ [(0x10, field (get32 d 0x10) 31 27 != 0 || !fmtOk x.dst || x.rnd == 3 || x.subn == 3 || x.rowstat == 3 || !scaleOk
        || (x.tile (x.tiles - 1)).isNone),
      (0x14, x.pitch % 4 != 0 || x.pitch < ceilDiv (wt * fmtWidth x.dst) 8),
      (0x18, x.dstVa % 4 != 0), addrBad d 0x18, addrBad d 0x20,
      (0x28, x.scaled && (x.scalePitch % 4 != 0 || x.scalePitch < ceilDiv wt 32)),
      (0x30, x.rowstat != 0 && x.statVa % 16 != 0), addrBad d 0x30]
    ++ (if x.maskEn then [addrBad d 0x38, (0x40, x.maskPitch % 4 != 0 || x.maskPitch < ceilDiv wt 8)]
      else zeroBad d 0x38 0x44)
    ++ gapBad d 0x44 0x60 :: productBad d (x.rnd == stoch) false ++ tailBad d 0xC0)

/-! ## Row records (R218, R219) -/

/-- R218: one term of SUM, in units of 2^-48, of a value against a finite maximum. -/
def statTerm (bank : Option (List Nat)) (top : Rat) (x : Num) : Nat :=
  match x.rat none with
  | none => 0
  | some q =>
    let d := (top - q) * 8388608
    let n := roundCount d rne 0
    ((antilogRat bank (-(min n (511 * 8388608) : Int)) 1 0) * pow2 48).floor.toNat

/-- R218: the record of a row of LF32 values. -/
def rowRecord (bank : Option (List Nat)) (isMax : Bool) (colBase : Nat) (xs : List Num) : List Byte :=
  let w := (extremum isMax none xs.zipIdx).getD (limitOf isMax, 0xFFFFFFFF)
  let sum : Num :=
    if !isMax then .zero false
    else
      match w.1 with
      | .nan => .nan
      | .inf true => .zero false
      | .inf false => numOfRat ((xs.filter fun x => x == .inf false).length : Rat)
      | top => numOfRat (((xs.map (statTerm bank ((top.rat none).getD 0))).foldl (· + ·) 0 : Rat) * pow2 (-48))
  leBytes 4 (toLf32 w.1) ++ leBytes 4 (toLf32 sum) ++ leBytes 4 (colBase + w.2) ++ zeros 4

/-! ## One row (R214 to R218) -/

/-- An output as the drain sees it: what the cell holds, and whether it is masked. -/
structure DrainCell where
  value  : AccValue
  masked : Bool

/-- R138, R144, R214: an output as it takes part in the choice of a block scale. -/
def drainNum (x : DrainDesc) (v : AccValue) : Num :=
  if x.fmt == 0 then (decodeNum fLF32 v.hi 0 x.subn).1 else v.num x.fmt

/-- R214, R217: the code of one output under a block scale and a draw; and what it raises. -/
def drainCode (bank : Option (List Nat)) (x : DrainDesc) (sc : Int) (u : Nat) (c : DrainCell) : Nat × Ev :=
  if c.masked then ((encodeInf x.dst true).1, .none)
  else
    let e :=
      if x.fmt == 0 then convert bank fLF32 c.value.hi 0 x.dst sc x.rnd x.subn u
      else if x.fmt == 1 then encodeNum bank x.dst sc x.rnd x.subn u (c.value.num 1)
      else convert bank fI32 c.value.hi 0 x.dst sc x.rnd x.subn u
    if x.fmt == 2 && c.value.sat then (e.1, .saturated) else e

/-- The bytes of codes of a format (R128). -/
def packCodes (f : Nat) (codes : List Nat) : List Byte :=
  let w := fmtWidth f
  leBytes (ceilDiv (codes.length * w) 8) ((codes.zipIdx.map fun p => p.1 * 2 ^ (w * p.2)).foldl (· + ·) 0)

/-- R217: whether output c of a row is masked. -/
def drainMasked (x : DrainDesc) (mask : List Byte) (c : Nat) : Bool :=
  x.maskEn && ((elementOf mask fB1 c == 1) != x.maskInv)

/-- R216: the pages a row touches, in order. -/
def State.drainChecks (s : State) (e : ClusterId) (x : DrainDesc) (row : Nat) : Except Halt Unit :=
  let wt := x.size.2
  checkAll ([s.checkIn (ownCluster e) .write 5 (x.dstVa + row * x.pitch) (ceilDiv (wt * fmtWidth x.dst) 8)]
    ++ (if x.scaled then
        [s.checkIn (ownCluster e) (if x.scaleMode == 0 then .read else .write) 7 (x.scaleVa + row * x.scalePitch) (wt / 32)]
      else [])
    ++ (if x.rowstat == 0 then [] else [s.checkIn (ownCluster e) .write 8 (x.statVa + 16 * row) 16])
    ++ (if x.maskEn then [s.checkIn (ownCluster e) .read 9 (x.maskVa + row * x.maskPitch) (wt / 8)] else []))

/-- Writes one row of outputs: codes, chosen scales, record. -/
def State.drainWrite (s : State) (e : ClusterId) (op : MatrixOp) (x : DrainDesc) (g : Region) (tileIdx row : Nat)
    (given : List Byte) (cells : List DrainCell) : MatrixOp × State :=
  let bank := s.antilogBank op.bank
  let scales : List Int := (List.range (x.size.2 / 32)).map fun b =>
    if !x.scaled then 0
    else if x.scaleMode == 0 then scaleOf (get8 given b)
    else chooseScale x.scaleMode x.dst (((((cells.drop (32 * b)).take 32).filter fun c => !c.masked).map fun c => drainNum x c.value))
  let t := streamsAt op.work.desc op.table
  let slot := x.slot + tileIdx
  let r := row - tileIdx * x.size.1
  let codes := cells.mapIdx fun c cell =>
    let lane := 128 * (g.row + r) + g.col + c
    let u := if x.rnd == stoch then t.draw (streamId 0 e.cdie e.cluster lane slot) lane slot tileIdx else 0
    drainCode bank x (scales.getD (c / 32) 0) u cell
  let s := s.storeAt matrixReader (x.dstVa + row * x.pitch) (packCodes x.dst (codes.map fun p => p.1))
  let s := if x.scaled && x.scaleMode != 0 then
      s.storeAt matrixReader (x.scaleVa + row * x.scalePitch) (scales.flatMap fun v => leBytes 1 (unsignedOf 8 v))
    else s
  let stats := cells.map fun c => if c.masked then .inf true else lf32 (toLf32 (c.value.num x.fmt))
  let s := if x.rowstat == 0 then s
    else s.storeAt matrixReader (x.statVa + 16 * row) (rowRecord bank (x.rowstat == 1) x.colBase stats)
  ({ op with next := op.next + 1, counts := op.counts.addAll (codes.map fun p => p.2) }, s)

/-- R216, R257: one row of the drain. -/
def State.drainRow (s : State) (e : ClusterId) (op : MatrixOp) (x : DrainDesc) (acc : List AccPlace) :
    Except Halt MatrixOp × State :=
  let row := op.next
  let wt := x.size.2
  let tileIdx := row / x.size.1
  match s.drainChecks e x row with
  | .error h => (.error h, s)
  | .ok _ =>
    match (if x.maskEn then s.fetchIn matrixReader (ownCluster e) 9 (x.maskVa + row * x.maskPitch) (wt / 8) else (.ok [], s)) with
    | (.error h, s) => (.error h, s)
    | (.ok mask, s) =>
      match (if x.scaled && x.scaleMode == 0 then
          s.fetchIn matrixReader (ownCluster e) 7 (x.scaleVa + row * x.scalePitch) (wt / 32)
        else (.ok [], s)) with
      | (.error h, s) => (.error h, s)
      | (.ok given, s) =>
        match x.tile tileIdx with
        | none => (.ok op, s)
        | some g =>
          let cells := (List.range wt).map fun c => DrainCell.mk (accRead s.freeCtr acc g (row % x.size.1) c) (drainMasked x mask c)
          let r := s.pastPlaces.drainWrite e op x g tileIdx row given cells
          (.ok r.1, r.2)

/-- R213, R257: rows of the active drain, until it stops or ends. -/
def State.drainRun (e : ClusterId) (x : DrainDesc) : Nat → MatrixOp → State → State
  | 0, op, s => s.setActive e (some { op with ended := some ⟨stOk, 0⟩ })
  | n + 1, op, s =>
    match s.cluster? e with
    | none => s
    | some c =>
      match s.drainRow e op x c.matrix.acc with
      | (.error h, s) => s.matHalt e op h
      | (.ok op, s) => State.drainRun e x n op s

/-- Goes on with a drain that has left the queue and passed its check. -/
def State.drainGo (s : State) (e : ClusterId) (op : MatrixOp) : State :=
  let x := DrainDesc.of op.work.desc
  let left := x.tiles * x.size.1 - op.next
  if op.added.isEmpty then
    match s.loadTable e op.work.desc (x.rnd == stoch) 16384 with
    | (.error h, s) => s.matHalt e op h
    | (.ok table, s) =>
      s.drainRun e x left { op with
        added := [0]
        table := table
        bank := s.tables.antilog.bankOf (.matrix e)
        counts := op.counts.noteAliases table }
  else s.drainRun e x left op

/-- R213: a drain starts, or goes on; every conflicting operation before it has ended, since entries leave the queue in order. -/
def execDrain (e : ClusterId) (s : State) : Host.Outcome State Fault Refusal := s.after <|
  match s.cluster? e with
  | none => .next s
  | some c =>
    match c.matrix.active with
    | some op =>
      if !isDrain op.work.desc || op.suspended.isSome || op.ended.isSome || !s.enginesRun then .next s
      else .next (s.drainGo e op)
    | none =>
      match c.matrix.head? with
      | none => .next s
      | some w =>
        if !isDrain w.desc || w.isDebug || !s.engineFree w then .next s
        else
          let s := s.modMatrix e fun m => { m with queue := m.queue.drop 1 }
          match drainBad w.desc with
          | some detail => .next (s.setActive e (some { newMatrixOp w with ended := some ⟨stMalformed, detail⟩ }))
          | none => .next ((s.spillFor e w).drainGo e (newMatrixOp w))

/-- R220, R230: the end of a drain. -/
def execDrainEnd (e : ClusterId) (s : State) : Host.Outcome State Fault Refusal := s.after <|
  match s.matEnded e true with
  | none => .next s
  | some (op, x) => .next (s.matFinish e op x)

/-! ## The conventional unit (R37, R243) -/

/-- R370: REQ_KIND of the conventional unit, in its own die's memory; convWriter writes wherever records go. -/
def convReader : Reader := ⟨3, none, none⟩
def convWriter (cdie : Nat) : Reader := convReader.on (.c, cdie)

/-- R37: one fused multiply-add, rounded once to nearest. -/
def fmaStep (subn : Nat) (acc : Num × List Ev) (ab : Num × Num) : Num × List Ev :=
  let p := mulNum ab.1 ab.2
  let r := addNum p.1 acc.1
  let anyNan := ab.1.isNan || ab.2.isNan || acc.1.isNan
  let e := encodeNum none fLF32 0 rne subn 0 r.1
  (lf32 e.1, acc.2 ++ [if (p.2 || r.2) && !anyNan then .invalid else e.2])

/-- Decodes a slice of LF operands; and what it raises. -/
def lfSlice (f subn : Nat) (sl : Slice) : List Num × List Ev :=
  let ds := sl.codes.map fun c => decodeNum f c 0 subn
  (ds.map fun p => p.1, ds.map fun p => if p.2 then .flushed else .none)

/-- One output row: its bytes, and what it raises; start values under ACC 1. -/
def convRow (subn : Nat) (start : List Num) (a : List Num) (bs : List (List Num)) : List Byte × List Ev :=
  let r := bs.mapIdx fun n b => (List.zip a b).foldl (fmaStep subn) (start.getD n (.zero false), [])
  (r.flatMap fun p => leBytes 4 (toLf32 p.1), r.flatMap fun p => p.2)

/-- R243: row m of an INPUT operation. -/
def State.inputRow (s : State) (cdie : Nat) (op : ConvOp) (x : MatDesc) : Except Halt ConvOp × State :=
  let m := op.nextRow
  let out := x.block + m * x.blockPitch
  match gatherAll (fun n s => s.fetchSlice (ownDie cdie) convReader x.b 1 n 0 x.k) (List.range x.n) s with
  | (.error h, s) => (.error h, s)
  | (.ok bs, s) =>
    match s.fetchSlice (ownDie cdie) convReader x.a 0 m 0 x.k with
    | (.error h, s) => (.error h, s)
    | (.ok a, s) =>
      match s.checkIn (ownDie cdie) .write 5 out (4 * x.n) with
      | .error h => (.error h, s)
      | .ok _ =>
        match (if x.add then s.fetchIn convReader (ownDie cdie) 5 out (4 * x.n) else (.ok [], s)) with
        | (.error h, s) => (.error h, s)
        | (.ok old, s) =>
          let start := if x.add then (List.range x.n).map fun n => decodeNum fLF32 (get32 old (4 * n)) 0 x.subn else []
          let ad := lfSlice x.a.fmt x.subn a
          let bd := bs.map (lfSlice x.b.fmt x.subn)
          let r := convRow x.subn (start.map fun p => p.1) ad.1 (bd.map fun p => p.1)
          let read := (if m == 0 then bd.flatMap fun p => p.2 else []) ++ ad.2
            ++ (start.map fun p => if p.2 then Ev.flushed else .none)
          (.ok { op with nextRow := m + 1, counts := (op.counts.addAll read).addAll r.2 }, s.storeAt convReader out r.1)

def State.setConv (s : State) (cdie : Nat) (op : ConvOp) : State :=
  { s with conv := s.conv.modify cdie fun u => { u with ops := op :: u.ops.drop 1 } }

/-- Output rows, until the operation stops or ends. -/
def State.inputRun (cdie : Nat) (x : MatDesc) : Nat → ConvOp → State → State
  | 0, op, s => s.setConv cdie { op with ended := some ⟨stOk, 0⟩ }
  | n + 1, op, s =>
    match s.inputRow cdie op x with
    | (.ok op, s) => State.inputRun cdie x n op s
    | (.error h, s) =>
      let r := s.haltEnd h
      r.2.setConv cdie { op with suspended := r.1.1, ended := r.1.2, view := r.2.viewOf (x.reads op.work.desc) }

/-- R243: the conventional unit computes the first of the operations that have arrived. R241: if what it reads has been written while it was
suspended, its result is undefined. -/
def execInputOperation (cdie : Nat) (s : State) : Host.Outcome State Fault Refusal := s.after <|
  match (s.conv[cdie]?).bind fun u => u.ops.head? with
  | none => .next s
  | some op =>
    if op.ended.isSome || op.suspended.isSome || !s.enginesRun then .next s
    else
      let x := MatDesc.of op.work.desc
      if s.viewHolds op.view then .next (s.inputRun cdie x (x.m - op.nextRow) op) else .fault .operandWritten

/-- The first INPUT operation leaves the unit and completes. -/
def State.convDone (s : State) (cdie : Nat) (op : ConvOp) (x : Ending) : State :=
  let s := { s with conv := s.conv.modify cdie fun u => { u with ops := u.ops.drop 1 } }
  (s.modMatrix op.cluster fun m => m.released op.work).endCounted op.work x op.counts

/-- R250: STEP_END of an INPUT operation that has ended evaluates its layer. -/
def State.convStep (s : State) (cdie : Nat) (op : ConvOp) : State :=
  let d := MatDesc.of op.work.desc
  s.monitorEnd (.conventional cdie) d.layer [] d.stepEnd

/-- R230, R243: the end of an INPUT operation. -/
def execInputOperationEnd (cdie : Nat) (s : State) : Host.Outcome State Fault Refusal := s.after <|
  match (s.conv[cdie]?).bind fun u => u.ops.head? with
  | none => .next s
  | some op =>
    match op.ended, op.suspended with
    | some x, none =>
      let d := MatDesc.of op.work.desc
      if !op.stepped && s.choiceHeld d.layer d.stepEnd then .next s
      else
      let s := if op.stepped then s else s.convStep cdie op
      let op := { op with stepped := true }
      let f := s.freshes 4
      (match f.2.close (convWriter cdie) (.conventional cdie) d.status x (matrixRecord x op.counts f.1) with
      | .waits y s => .next (s.setConv cdie { op with suspended := some y })
      | .held => .next (s.setConv cdie op)
      | .done _ x s => .next (s.convDone cdie op x))
    | _, _ => .next s

/-! ## DEBUG_READ (R225) -/

/-- Bits packed by R128. -/
def packBits (bs : List Bool) : List Byte := packCodes fB1 (bs.map bit)

/-- R225: the raw words of a slot, then its saturation bits. -/
def debugBytes (ctr : Nat) (acc : List AccPlace) (g : Region) (fmt : Nat) : List Byte :=
  let cells := (List.range g.rows).flatMap fun r => (List.range g.cols).map fun c => accRead ctr acc g r c
  (cells.flatMap fun v => leBytes 4 v.hi ++ (if fmt == 1 then leBytes 4 v.lo else []))
    ++ packBits (cells.map fun v => fmt == 2 && v.sat)

/-- R225: the fields of a DEBUG_READ. -/
def debugCluster (pl : List Byte) : ClusterId := ⟨get8 pl 10, get8 pl 11⟩

/-- R225: the first bad field of a DEBUG_READ. -/
def debugBad (p : Part) (pl : List Byte) : Option Nat :=
  firstBad [(8, 512 ≤ get16 pl 8 || (debugRegion? pl).isNone), (10, p.c ≤ get8 pl 10), (11, 16 ≤ get8 pl 11)]

/-- R225: firmware places the command in the queue of the named engine, and answers it later. -/
def debugReadBody (carrel : Nat) (pl : List Byte) (s : State) : Option Answer × State :=
  if !s.fw.debugOn then (some (ans stBadState), s)
  else
    match debugBad s.fuses.part pl with
    | some f => (some (ansField f), s)
    | none =>
      let u := s.newUid
      let seq := ((s.carrel? carrel).elim 0#32 fun c => c.reqSeq).setWidth 64
      (none, u.2.acceptWork (.matrix (debugCluster pl)) ⟨u.1, .debug carrel, false, pl, [seq]⟩)

/-- R225: the entry that a DEBUG_READ in a carrel has placed, and its engine. -/
def State.debugEntry (s : State) (carrel : Nat) : Option (ClusterId × Work) :=
  (List.range s.clusters.length).findSome? fun i =>
    (s.clusters[i]?.bind fun c => c.matrix.queue.find? fun w => w.issuer == .debug carrel).map fun w => (clusterOf i, w)

/-- R225: what an entry writes. -/
def State.debugData (s : State) (e : ClusterId) (pl : List Byte) : List Byte :=
  match debugRegion? pl, s.cluster? e with
  | some g, some c => debugBytes s.freeCtr c.matrix.acc g (field (get16 pl 8) 8 7)
  | _, _ => []

/-- R208, R225: once the entry has come to the head of its queue, and may write (R80), it writes and the command is answered. A destination that
a page does not take ends it with TRANSLATION_FAULT (DESIGN CHOICE, log 31). -/
def State.debugRun (s : State) (carrel : Nat) : State :=
  match s.debugEntry carrel with
  | none => s
  | some (e, w) =>
    let bytes := s.debugData e w.desc
    let ready := (s.cluster? e).elim false fun c => c.matrix.active.isNone && c.matrix.head? == some w
    if !ready || !s.enginesRun || s.recordHeld (get64 w.desc 0) bytes.length then s
    else
      let s := s.modMatrix e fun m => { m with queue := m.queue.filter fun x => x.uid != w.uid }
      let r := s.pastPlaces.writeRecord (matrixWriter e) (.matrix e) (get64 w.desc 0) bytes
      let a : Answer × State := match r.1 with
        | .ok => (ansOk [], r.2)
        | .stop cls va =>
          let f := r.2.faultEnding cls va
          (⟨f.1.status, f.1.detail, [], 0#32⟩, f.2)
        | .failed k => (⟨stDeviceError, k % 65536, [], 0#32⟩, r.2)
      a.2.respond carrel ((w.scalars.getD 0 0#64).setWidth 32) 0x0079 (a.2.tagOf carrel) a.1

/-- R227: a DEBUG_READ whose engine's queue is full waits until an entry frees. -/
def State.debugHeld (s : State) (pl : List Byte) : Bool :=
  s.fw.debugOn && (debugBad s.fuses.part pl).isNone && s.engineFull [] (.matrix (debugCluster pl))

/-- R208, R225: the ring is taken, or an entry placed before goes on. -/
def execDebugRead (carrel : Nat) (s : State) : Host.Outcome State Fault Refusal := s.after <|
  if (s.debugEntry carrel).isSome then .next (s.debugRun carrel)
  else
    match s.unlessHeld carrel 0x0079 s.debugHeld (takeRingLater carrel 0x0079 (debugReadBody carrel) s) with
    | .next s => .next (s.debugRun carrel)
    | o => o

end Sys2Proof.Machine
end

