-- ==== Sys2Proof/Machine/Catalogue.lean ====
section
/-! DEFINITION. The Catalogue (R44 to R62, R559) and spare substitution (R552). -/

namespace Sys2Proof.Machine

/-! ## Physical origins (R34, R56 to R61, R552) -/

/-- R56: the primary map of a C-die: logical 0 is physical 0, logical k is physical k + 1. -/
def primaryCluster (k : Nat) : Nat := if k == 0 then 0 else k + 1

def primaryClusters (p : Part) : List ClusterOrigin :=
  (List.range (16 * p.c)).map fun i => ⟨i / 16, i % 16, primaryCluster (i % 16), 0, 0xFFFFFFFF#32⟩

def primarySpares (p : Part) : List SpareChannel :=
  (List.range (p.groups .near)).map (fun g => ⟨.near, g, 0, 0xFF, 0xFF⟩)
    ++ (List.range (p.groups .dep)).map (fun g => ⟨.dep, g, 0, 0xFF, 0xFF⟩)

/-- Every unit in its primary place. -/
def Physical.primary (p : Part) : Physical := ⟨primaryClusters p, [], primarySpares p, [], [], []⟩

/-- R56, R552: the physical cluster ph of a C-die leaves service, by a fuse (origin 1) or a record (origin 2); failed are the
physical clusters out of service before it. A spare of the same kind takes its logical number, and the record is its FAULT_REF (R57), or it
is FAILED. DESIGN CHOICE (log 59): a FAILED cluster goes on showing the last physical cluster that served it, and the FAULT_REF it had. -/
def Physical.dropCluster (f : Physical) (failed : List (Nat × Nat)) (cdie ph origin : Nat) (ref : Word32) : Physical :=
  let spare := if ph ≤ 1 then 1 else 17
  let used := f.clusters.any fun o => o.cdie == cdie && o.phys == spare
  let ok := !used && !failed.contains (cdie, spare) && ph != spare
  let cs := updIf (fun o => o.cdie == cdie && o.phys == ph && o.origin != 3)
    (fun o => if ok then { o with phys := spare, origin := origin, faultRef := ref } else { o with origin := 3 })
    f.clusters
  { f with clusters := cs }

/-- R59, R552: a channel, or the spare that serves it, leaves service. FAULT_REF is the record behind a substitution alone (R58). -/
def Physical.dropChannel (p : Part) (f : Physical) (tier : Space) (stack ch : Nat) (onSpare : Bool) (origin : Nat)
    (ref : Word32) : Physical :=
  let g := p.groupOf stack
  let serving := f.spares.any fun x =>
    x.tier == tier && x.stack == stack && x.channel == ch && (x.state == 1 || x.state == 2)
  let free := f.spares.any fun x => x.tier == tier && x.group == g && x.state == 0
  let replaced := f.channels.any fun c => c.tier == tier && c.stack == stack && c.channel == ch
  if onSpare then
    if serving then
      { f with
        spares := updIf (fun x => x.tier == tier && x.group == g)
          (fun x => { x with state := 3, stack := 0xFF, channel := 0xFF }) f.spares
        channels := updIf (fun c => c.tier == tier && c.stack == stack && c.channel == ch) (fun c => { c with origin := 3 }) f.channels }
    else f
  else if replaced then f
  else if free then
    { f with
      spares := updIf (fun x => x.tier == tier && x.group == g)
        (fun x => { x with state := origin, stack := stack, channel := ch }) f.spares
      channels := f.channels ++ [⟨tier, stack, ch, origin, ref⟩] }
  else { f with channels := f.channels ++ [⟨tier, stack, ch, 3, 0xFFFFFFFF#32⟩] }

def Physical.dropLane (f : Physical) (link dir lane : Nat) : Physical :=
  if f.lanes.contains (link, dir, lane) then f else { f with lanes := f.lanes ++ [(link, dir, lane)] }

def Physical.dropPlane (f : Physical) (kind die plane : Nat) : Physical :=
  if f.planes.contains (kind, die, plane) then f else { f with planes := f.planes ++ [(kind, die, plane)] }

/-- The fused-off clusters taken out in order. -/
def dropFusedClusters (f : Physical) : List (Nat × Nat) → List (Nat × Nat) → Physical
  | _, [] => f
  | failed, (cd, ph) :: rest =>
    dropFusedClusters (f.dropCluster failed cd ph 1 0xFFFFFFFF#32) (failed ++ [(cd, ph)]) rest

/-- R34, R46: the origins the ROM edition shows: spares as fused, of clusters, channels and Spine lanes. -/
def fusedPhysical (f : Fuses) : Physical :=
  let ph := f.badChannels.foldl (fun ph b => ph.dropChannel f.part b.1 b.2.1 b.2.2 false 1 0xFFFFFFFF#32)
    (dropFusedClusters (Physical.primary f.part) [] f.badClusters)
  f.badLanes.foldl (fun ph b => ph.dropLane b.1 b.2.1 b.2.2) ph

/-! ## Links (R24 to R26, R34, R61) -/

/-- A Spine link: lower end, other end, data lanes, lane rate. -/
structure LinkRow where
  aKind : Nat
  aDie  : Nat
  bKind : Nat
  bDie  : Nat
  lanes : Nat
  gbps  : Nat

/-- R61: the SPINE_LINK instances in order. -/
def Part.linkRows (p : Part) : List LinkRow :=
  (List.range (p.c - 2)).map (fun i => ⟨0, i, 0, i + 2, 128, 75⟩)
    ++ (List.range (p.c / 2)).map (fun j => ⟨0, 2 * j, 0, 2 * j + 1, 64, 75⟩)
    ++ (List.range p.c).map (fun i => ⟨0, i, 1, p.serving (i / 2), 64, 75⟩)
    ++ (List.range (p.x - 1)).map (fun k => ⟨1, k, 1, k + 1, 128, 100⟩)
    ++ (List.range (p.d / 2)).map (fun k => ⟨1, p.xdieOf k, 2, k, 96, 75⟩)

/-- R34: spare lanes per link and direction. -/
def Part.spareLanes (p : Part) : Nat := if p.c == 2 then 2 else if p.c == 4 then 3 else 4

/-- The lanes of a link out of service in a direction whose numbers lie from lo to hi - 1. DESIGN CHOICE (log 59): data lanes are numbered from
0, the spare lanes follow them. -/
def lanesOut (ls : List (Nat × Nat × Nat)) (link dir lo hi : Nat) : Nat :=
  (ls.filter fun l => l.1 == link && l.2.1 == dir && lo ≤ l.2.2 && l.2.2 < hi).length

/-- R61: of a link's lanes out of service in a direction: the spares in use in their place, and the data lanes that no spare is left for. -/
def Part.laneUse (p : Part) (ls : List (Nat × Nat × Nat)) (link dir data : Nat) : Nat × Nat :=
  let lost := lanesOut ls link dir 0 data
  let working := p.spareLanes - lanesOut ls link dir data (data + p.spareLanes)
  (min lost working, lost - working)

/-- R34: a router's spare crossbar planes. -/
def Part.sparePlanes (p : Part) : Nat := if p.c == 8 then 1 else 0

/-- R35, R552: units left without a working physical unit. -/
def Physical.shortfall (p : Part) (f : Physical) : Nat :=
  let dies := (f.planes.map fun a => (a.1, a.2.1)).eraseDups
  (f.clusters.filter fun c => c.origin == 3).length
    + (f.channels.filter fun c => c.origin == 3).length
    + (p.linkRows.mapIdx fun i l => (p.laneUse f.lanes i 0 l.lanes).2 + (p.laneUse f.lanes i 1 l.lanes).2).foldl (· + ·) 0
    + (dies.map fun d => (f.planes.filter fun a => (a.1, a.2.1) == d).length - p.sparePlanes).foldl (· + ·) 0

/-! ## Entries (R50 to R62) -/

def w32 (n : Nat) : Word32 := BitVec.ofNat 32 n

/-- Bytes of a 32-bit word, lowest first. -/
def word4 (b0 b1 b2 b3 : Nat) : Nat := b0 % 256 + b1 % 256 * 2 ^ 8 + b2 % 256 * 2 ^ 16 + b3 % 256 * 2 ^ 24

/-- An entry from its words at 0x08 on, without origin fields. -/
def plainEntry (type inst : Nat) (ws : List Nat) : CatEntry :=
  ⟨type, inst, false, ws.map w32, ws.map fun _ => 0#32⟩

/-- An entry with origin fields: words, masks. -/
def originEntry (type inst : Nat) (changed : Bool) (ws masks : List Nat) : CatEntry :=
  ⟨type, inst, changed, ws.map w32, masks.map w32⟩

/-- R52. -/
def interfaceEntry (f : Fuses) (uadin build : Word32) : CatEntry :=
  plainEntry 0x0001 0 [uadin.toNat, build.toNat, f.romVersion.toNat, 0]

/-- R53. -/
def limitsEntry (p : Part) : CatEntry :=
  plainEntry 0x0002 0 [word4 57 0x07 20 (if p.c == 8 then 9 else 8), 65536, 4096 + 64 * 2 ^ 16, 256 + p.pmax * 2 ^ 16, 64,
    262144, 1800 + 1200 * 2 ^ 16, 1000 + 8192 * 2 ^ 16, 200, 60000, 2000, 0]

/-- R54: the C-dies. -/
def cdieEntries (p : Part) : List CatEntry :=
  (List.range p.c).map fun i =>
    originEntry 0x0010 i false [word4 (i / 2) (i % 2) (p.serving (i / 2)) p.stacksPerDie, i] [0, 0xFF]

/-- R55: the flow-table shard of X-die k: first entry and count. -/
def Part.shard (p : Part) (k : Nat) : Nat × Nat :=
  (k * (262144 / p.x) + min k (262144 % p.x), 262144 / p.x + bit (k < 262144 % p.x))

/-- R54: the X-dies. -/
def xdieEntries (p : Part) : List CatEntry :=
  (List.range p.x).map fun k =>
    originEntry 0x0011 k false
      [word4 k (p.ddiesOn k) (if p.ddiesOn k == 0 then 0xFF else p.firstDdie k) (bit (k != 0)), 0xFFFF,
        (p.shard k).1, (p.shard k).2] [0xFF, 0, 0, 0]

/-- R54: the D-dies. -/
def ddieEntries (p : Part) : List CatEntry :=
  (List.range (p.d / 2)).map fun k => originEntry 0x0012 k false [word4 (p.xdieOf k) (2 * k) k 0, 0] [0xFF0000, 0]

/-- R57: the clusters. -/
def clusterEntries (f : Physical) : List CatEntry :=
  f.clusters.map fun o =>
    let lead := o.cluster == 0
    originEntry 0x0020 (16 * o.cdie + o.cluster) (o.phys != primaryCluster o.cluster || o.origin != 0 || o.faultRef != 0xFFFFFFFF#32)
      [word4 o.cdie o.cluster o.phys o.origin, bit lead + (if lead then 0 else 4) * 16 + 16 * 2 ^ 8
        + (if lead then 1024 else 0) * 2 ^ 16, 16384, o.faultRef.toNat] [0x03FF0000, 0, 0, 0xFFFFFFFF]

/-- R58: the stacks of a tier. DESIGN CHOICE (log 59): of several substitutions in a stack FAULT_REF shows the last. -/
def stackEntries (p : Part) (f : Physical) (tier : Space) : List CatEntry :=
  let per := if tier == .near then p.stacksPerDie else 2
  (List.range (p.stacksOf tier)).map fun k =>
    let mine := f.channels.filter fun c => c.tier == tier && c.stack == k
    let cm := (mine.map fun c => c.origin * 4 ^ c.channel).foldl (· + ·) 0
    let ref := ((mine.filter fun c => c.faultRef != 0xFFFFFFFF#32).getLast?.map fun c => c.faultRef.toNat).getD 0xFFFFFFFF
    originEntry (if tier == .near then 0x0030 else 0x0031) k (!mine.isEmpty)
      [word4 (k / per) (k % per) 0 0, (if tier == .near then 64 + 10667 * 2 ^ 16 else 128 + 8533 * 2 ^ 16), cm, ref]
      [0xFF00, 0, 0xFFFF, 0xFFFFFFFF]

/-- R60: the spare channels. -/
def spareEntries (f : Physical) : List CatEntry :=
  f.spares.mapIdx fun i x =>
    originEntry 0x0032 i (x.state != 0) [x.tier.bit + x.group * 2 ^ 8 + x.state * 2 ^ 24, x.stack + x.channel * 2 ^ 8]
      [0x03000000, 0xFFFF]

/-- R61: the Spine links. -/
def linkEntries (p : Part) (f : Physical) : List CatEntry :=
  p.linkRows.mapIdx fun i l =>
    let ab := (p.laneUse f.lanes i 0 l.lanes).1
    let ba := (p.laneUse f.lanes i 1 l.lanes).1
    originEntry 0x0040 i (0 < ab + ba) [word4 l.aKind l.aDie l.bKind l.bDie, l.lanes + l.gbps * 2 ^ 16, word4 p.spareLanes ab ba 0, 0]
      [0, 0, 0x00FFFF00, 0]

/-- R62, R164, R301, R332, R433: the tables. -/
def tableEntries : List CatEntry :=
  [plainEntry 0x0050 0 [1 + 2 * 2 ^ 16, 256, 128, 0], plainEntry 0x0050 1 [2 + 2 * 2 ^ 16, 8192, 32, 0],
   plainEntry 0x0050 2 [3 + 2 * 2 ^ 16, 2048, 64, 0], plainEntry 0x0050 3 [4 + 2 ^ 16, 262144, 256, 0],
   plainEntry 0x0050 4 [5 + 2 ^ 16, 16384, 1024, 0]]

/-- R500: the switched power domains, in the table's order (DEDUCED, log 20): die kind, die, unit. -/
def powerDomains (p : Part) : List (Nat × Nat × Nat) :=
  (List.range (16 * p.c)).map (fun i => (0, i / 16, i % 16)) ++ (List.range p.c).map (fun i => (0, i, 0xFFFF))
    ++ (List.range p.c).map (fun i => (0, i, 0xFFFF)) ++ (List.range (p.d / 2)).map (fun i => (2, i, 0xFFFF))
    ++ (List.range (4 * p.x)).map (fun i => (1, i / 4, i % 4)) ++ (List.range p.x).map (fun i => (1, i, 0xFFFF))
    ++ (List.range p.x).map (fun i => (1, i, 0xFFFF))

/-- R503: the clock domains, in the table's order (DEDUCED, log 20): die kind, die, unit, kHz, power domain. -/
def clockDomains (p : Part) : List (Nat × Nat × Nat × Nat × Nat) :=
  (List.range (16 * p.c)).map (fun i => (0, i / 16, i % 16, 1800000, i))
    ++ (List.range (16 * p.c)).map (fun i => (0, i / 16, i % 16, 1200000, i))
    ++ (List.range p.c).map (fun i => (0, i, 0xFFFF, 1800000, 16 * p.c + i))
    ++ (List.range p.c).map (fun i => (0, i, 0xFFFF, 1333375, 0xFFFF))
    ++ (List.range p.c).map (fun i => (0, i, 0xFFFF, 1600000, 0xFFFF))
    ++ (List.range p.x).map (fun i => (1, i, 0xFFFF, 1600000, 0xFFFF))
    ++ (List.range p.x).map (fun i => (1, i, 0xFFFF, 1660156, 0xFFFF))
    ++ (List.range p.x).map (fun i => (1, i, 0xFFFF, 1000000, 0xFFFF))
    ++ (List.range (p.d / 2)).map (fun i => (2, i, 0xFFFF, 1066625, 0xFFFF))
    ++ [(1, 0, 0xFFFF, 1000000, 0xFFFF), (1, 0, 0xFFFF, 100000, 0xFFFF), (1, 0, 0xFFFF, 500000, 0xFFFF),
        (1, 0, 0xFFFF, 50000, 0xFFFF)]

def domainEntries (p : Part) : List CatEntry :=
  (clockDomains p).mapIdx (fun i d => plainEntry 0x0060 i [d.1 + d.2.1 * 2 ^ 8 + d.2.2.1 * 2 ^ 16, d.2.2.2.1, d.2.2.2.2, 0])
    ++ (powerDomains p).mapIdx (fun i d => plainEntry 0x0061 i [d.1 + d.2.1 * 2 ^ 8 + d.2.2 * 2 ^ 16, 0, 0, 0])

/-- R62, R559: the counter blocks. -/
def State.blockEntries (s : State) : List CatEntry :=
  s.counterBlocks.mapIdx fun i b =>
    let a := counterBase + i * 65536
    plainEntry 0x0070 i [b.group + b.scopeKind * 2 ^ 16, b.scope, a % 2 ^ 32, a / 2 ^ 32, b.values.length + 64 * 2 ^ 16, 0]

def endEntry : CatEntry := plainEntry 0xFFFF 0 []

/-- R46 step 1: the entries of the ROM edition. -/
def State.romEntries (s : State) : List CatEntry :=
  let p := s.fuses.part
  [interfaceEntry s.fuses 0#32 0#32] ++ cdieEntries p ++ xdieEntries p ++ ddieEntries p ++ clusterEntries s.phys
    ++ stackEntries p s.phys .near ++ stackEntries p s.phys .dep ++ spareEntries s.phys ++ linkEntries p s.phys ++ [endEntry]

/-- R46 step 2: the entries of a firmware edition. -/
def State.firmwareEntries (s : State) : List CatEntry :=
  let p := s.fuses.part
  let u := s.fw.running.getD ⟨0#32, 0#32, 0#32, 0#384⟩
  [interfaceEntry s.fuses u.uadin u.build, limitsEntry p] ++ cdieEntries p ++ xdieEntries p ++ ddieEntries p
    ++ clusterEntries s.phys ++ stackEntries p s.phys .near ++ stackEntries p s.phys .dep ++ spareEntries s.phys
    ++ linkEntries p s.phys ++ tableEntries ++ domainEntries p ++ s.blockEntries ++ [endEntry]

/-- R50: an entry's bytes. -/
def CatEntry.bytes (e : CatEntry) : List Byte :=
  leBytes 2 e.type ++ leBytes 2 (8 + 4 * e.words.length) ++ leBytes 4 (e.inst % 65536 + bit e.changed * 65536)
    ++ e.words.flatMap fun w => leBytes 4 w.toNat

/-- R49: an entry with its origin fields taken as 0. -/
def CatEntry.zeroed (e : CatEntry) : CatEntry :=
  { e with changed := false, words := List.zipWith (fun w m => w &&& ~~~m) e.words e.origin }

/-- R49. -/
def Catalogue.layoutCrc (c : Catalogue) : Nat := crc32 (c.entries.flatMap fun e => e.zeroed.bytes)
def Catalogue.fullCrc (c : Catalogue) : Nat := crc32 (c.entries.flatMap CatEntry.bytes)

/-- R48, R538: the word at 0x20 of the header. -/
def Part.word (p : Part) : Nat := word4 p.d p.x p.n p.c

/-- R44, R48: the bytes of the window up to TOTAL_SIZE; none before the first edition (R45). -/
def State.catalogueBytes (s : State) : List Byte :=
  let c := s.catalogue
  if c.stateCode == 0 then []
  else
    let body := c.entries.flatMap CatEntry.bytes
    leBytes 4 0x474C5443 ++ leBytes 2 0x0100 ++ leBytes 2 64 ++ leBytes 4 c.stateCode ++ leBytes 4 c.generation.toNat
      ++ leBytes 4 (64 + body.length) ++ leBytes 4 c.entries.length ++ leBytes 4 c.layoutCrc ++ leBytes 4 c.fullCrc
      ++ leBytes 4 s.fuses.part.word ++ leBytes 12 s.fuses.serial.toNat ++ zeros 16 ++ body

/-- R47: publishes an edition; its STATE is final. R84: a new edition raises source 67. -/
def State.publish (s : State) (stateCode : Nat) (es : List CatEntry) : State :=
  ({ s with catalogue := ⟨stateCode, s.catalogue.generation + 1#32, es⟩ }).raise 67

end Sys2Proof.Machine
end

