-- ==== Sys2Proof/Machine/Resets.lean ====
section
/-! DEFINITION. The resets of the whole part: power, the reset pins, DEVICE_RESET, and the end of a reset (R12, R88, R94, R95,
R515 to R518). -/

namespace Sys2Proof.Machine

/-- R88: what every reset of the whole part leaves: all of State.cold but the fuses, the model's own counters, outputs and queue;
memory and scratchpads undefined. -/
def State.restart (s : State) (cause : BitVec 3) : State :=
  let c := State.cold s.fuses
  let m := ((s.forgetSpace .near).forgetSpace .dep).forgetSpace .loc
  { c with
    bar0 := Bar0.reset cause
    mem := m.mem
    freeCtr := m.freeCtr
    nextUid := s.nextUid
    out := s.out
    pending := s.pending }

/-- R516, R519: VIN rises. PKG_PGOOD follows once both references are stable and every sensor is at 0 °C or above; R515: after a loss
of VIN the package starts only once VIN has stayed below 20 V for 10 ms. -/
def execPowerOn (refsStable : Bool) (coldestC : Int) (discharged : Bool) (s : State) : Host.Outcome State Fault Refusal := s.afterReset <|
  let good := refsStable && 0 ≤ coldestC
  if s.pins.powered then
    if s.pins.pgood || !good then .next s
    else .next { s.restart 0#3 with pins := ⟨true, true, true, true, false, false, false⟩ }
  else if !discharged then .next s
  else .next { s.restart 0#3 with pins := ⟨true, good, true, true, false, false, false⟩ }

/-- R515: the package is off and holds no state. -/
def execVinLoss (s : State) : Host.Outcome State Fault Refusal := s.afterReset <|
  if s.pins.powered then .next { s.restart 0#3 with pins := ⟨false, false, true, true, false, false, false⟩ }
  else .next s

/-- R518: with PKG_PGOOD high, the result is undefined; without, bring-up goes on waiting (R516). -/
def execRefclkLoss (s : State) : Host.Outcome State Fault Refusal := s.after <|
  if s.pins.pgood then .fault .refclkLost else .next s

/-- R88, R493: a reset by the pins. A reset that has not ended goes on. -/
def State.pinReset (s : State) : State :=
  { s.restart s.bar0.resetCause with
    pins := { s.pins with inReset := true, softReset := false, alertLow := false }
    power := { Power.reset s.fuses.part with tripped := s.power.tripped, tripSite := s.power.tripSite } }

/-- R517: a low pulse on a reset pin. 10 µs or more always resets; of a shorter one a free choice is made (log 21). -/
def State.pinPulse (s : State) (lowNs : Nat) : State :=
  if !s.pins.pgood then s
  else if 10000 ≤ lowNs then s.pinReset
  else
    let r := s.fresh
    if r.1.getLsbD 0 then r.2.pinReset else r.2

def execPerst (lowNs : Nat) (s : State) : Host.Outcome State Fault Refusal := s.afterReset <| .next (s.pinPulse lowNs)

def execColdReset (lowNs : Nat) (s : State) : Host.Outcome State Fault Refusal := s.afterReset <| .next (s.pinPulse lowNs)

/-- R91, R88, R493: DEVICE_RESET keeps link, configuration space, pins and Bellows. R41: the domains that it powers up count from 0. -/
def State.deviceReset (s : State) : State :=
  { s.restart 3#3 with
    pins := { s.pins with softReset := true }
    link := s.link
    cfg := s.cfg
    power := { s.power.gated.foldl Power.startTicks s.power with
      capW := s.fuses.part.pmax
      targetC := 90
      gated := []
      clocks := []
      dies := s.power.dies.map fun d => { d with level := 0, goodEvals := 0, fwPower := false, fwThermal := false } } }

/-- R63, R64: the width that working lanes allow: 16, 8, 4, or 0 for a link that stays down. -/
def linkWidth (lanes : BitVec 16) : Nat :=
  let l := lanes.toNat
  if l == 0xFFFF then 16
  else if l % 256 == 0xFF || l / 256 == 0xFF then 8
  else if l % 16 == 0xF || l / 4096 == 0xF then 4
  else 0

def trainedLink (lanes : BitVec 16) (rate : Nat) : Link :=
  if linkWidth lanes == 0 || rate == 0 then ⟨0, 0, false⟩ else ⟨linkWidth lanes, min rate 5, false⟩

/-- R94: a change of START_STATUS raises source 68. -/
def State.setStart (s : State) (st : Start) (detail : Nat) : State :=
  ({ s with fw := { s.fw with start := st, detail := BitVec.ofNat 16 detail } }).raise 68

/-- R94 to R96, R517, R545: reset ends; the boot ROM runs phases 1 to 4. A part whose fuses lost both rows stops in ROM_FAILED, X-die 0
named (DEDUCED, log 22). -/
def execResetEnd (coldLast : Bool) (lanes : BitVec 16) (rate : Nat) (failedDie : Option (DieKind × Nat)) (fusesBad : Bool)
    (s : State) : Host.Outcome State Fault Refusal := s.after <|
  if !(s.pins.pgood && (s.pins.inReset || s.pins.softReset)) || s.pins.tripLow then .next s
  else
    let soft := s.pins.softReset && !s.pins.inReset
    let cause := if soft then s.bar0.resetCause else if s.pins.firstReset then 0#3 else if coldLast then 2#3 else 1#3
    let s := { s with
      pins := { s.pins with inReset := false, softReset := false, firstReset := false }
      bar0 := { s.bar0 with resetCause := cause }
      link := if soft then s.link else trainedLink lanes rate }
    let s := s.setStart .romRunning 0
    if fusesBad then .next (s.setStart .romFailed 0x100)
    else
      match failedDie with
      | some (k, n) => .next (s.setStart .romFailed (k.code * 256 + n))
      | none =>
        let s := { s with phys := fusedPhysical s.fuses }
        .next ((s.publish 2 s.romEntries).setStart .romReady 0)

/-- R65: the PCIE_DEGRADED record of the link as it stands. -/
def State.linkRecord (s : State) : State :=
  s.log { cls := 0x0001, severity := 0, siteKind := 1, site := 0, unit := 0xFFFF, injected := false,
          payload := [s.link.rate + s.link.lanes * 2 ^ 8] }

/-- R65: the negotiated rate or width changes; a record follows once phase 7 has written its own, unless firmware has stopped. DESIGN CHOICE
(log 60): a link that goes down has no rate or width to record and writes none; one that comes up again, at whatever rate and width,
writes one. -/
def execLinkChange (lanes : BitVec 16) (rate : Nat) (s : State) : Host.Outcome State Fault Refusal := s.after <|
  if !s.pins.pgood || s.pins.inReset then .next s
  else
    let l := trainedLink lanes rate
    if l.lanes == s.link.lanes && l.rate == s.link.rate then .next s
    else
      let s := { s with link := l }
      if l.lanes != 0 && s.ledger.next != 0 && !(s.fw.start == .fwFailed) then .next s.linkRecord else .next s

/-- R66: entry to L1 is requested after 10 µs of silence, when the host has enabled it. -/
def execL1Entry (s : State) : Host.Outcome State Fault Refusal := s.after <|
  if s.cfg.aspmL1 && s.link.lanes != 0 then .next { s with link := { s.link with inL1 := true } } else .next s

/-- R66: the link returns to L0. -/
def execL1Exit (s : State) : Host.Outcome State Fault Refusal := s.after <|
  .next { s with link := { s.link with inL1 := false } }

end Sys2Proof.Machine
end

