-- ==== Sys2Proof/Machine/Power.lean ====
section
/-! DEFINITION. Power, thermal control, clocks, timestamps (R485 to R510, R519, R520) and the SMBus target (R522, R523). -/

namespace Sys2Proof.Machine

/-! ## Correlation of the counters (R508) -/

/-- What makes firmware correlate anew when it changes: the levels, N, and the gated domains. -/
def Power.clocking (p : Power) : List (Nat × Nat) × List Domain := (p.dies.map fun d => (d.level, d.n), p.gated)

/-- R508: t follows s; a change of level, of N or of power state makes firmware correlate. -/
def State.retimed (s t : State) : State :=
  if t.fwRuns && t.power.clocking != s.power.clocking then t.correlate else t

def State.retime (s : State) : Host.Outcome State Fault Refusal → Host.Outcome State Fault Refusal
  | .next t => .next (s.retimed t)
  | .fault f => .fault f
  | .refused r => .refused r

/-! ## Clocks (R485, R486) -/

/-- R486: the core clock of an operating level, in MHz. -/
def levelMhz (level : Nat) : Nat := [1800, 1600, 1400, 1200, 1000, 800].getD level 800

/-- R485: the core clock of a C-die in kHz, as pulse skipping leaves it. -/
def DiePower.coreKhz (d : DiePower) : Nat := levelMhz d.level * 1000 * (16 - d.n) / 16

/-- R486: the control clock is two thirds of the core clock; in kHz. -/
def DiePower.controlKhz (d : DiePower) : Rat := d.coreKhz * 2 / 3

/-! ## Bellows (R492 to R498) -/

/-- R498: the command rate that a stack's temperature allows outside emergencies, in percent: 100 up to 95 °C, falling to 25 at 105 °C. -/
def rateLimit (tempC : Int) : Rat :=
  if tempC ≤ 95 then 100 else if 105 ≤ tempC then 25 else 100 - 15 / 2 * (tempC - 95)

/-- R495, R498: the command rate of a stack's controllers. -/
def State.stackRate (s : State) (x : Stack) : Rat :=
  if s.power.declared.contains (.thermalStack x.tier x.stack) then 25 else rateLimit x.tempC

/-- R495: whether a declared cause holds N of a C-die at 14. -/
def forces (p : Part) (cdie : Nat) (c : Cause) : Bool :=
  match c with
  | .power => true
  | .inputVoltage => true
  | .thermalDie .c d => d == cdie
  | .thermalDie _ _ => true
  | .thermalStack .near k => k / p.stacksPerDie == cdie
  | .thermalStack _ _ => true

/-- R495: every action of a declared cause is in force; R520: THERM_ALERT_n follows. -/
def State.applyEmergencies (s : State) : State :=
  { s with
    power := { s.power with
      dies := updIf (fun d => d.kind == .c && s.power.declared.any fun c => forces s.fuses.part d.die c) (fun d => { d with n := 14 })
        s.power.dies }
    pins := { s.pins with alertLow := !s.power.declared.isEmpty } }

/-- R510: the counter of a cause. -/
def Power.countCause (p : Power) (c : Cause) : Power :=
  match c with
  | .power => { p with emPower := bump p.emPower 1 }
  | .thermalDie _ _ => { p with emDie := bump p.emDie 1 }
  | .thermalStack _ _ => { p with emStack := bump p.emStack 1 }
  | .inputVoltage => { p with emVin := bump p.emVin 1 }

/-- R496: source 65, through firmware. -/
def State.raiseEmergency (s : State) : State := if s.fwRuns then s.raise 65 else s

/-- R495, R496: declares a cause, once. -/
def State.declare (s : State) (c : Cause) (holds : Bool) : State :=
  if !holds || s.power.declared.contains c then s
  else
    ({ s with power := { s.power.countCause c with declared := s.power.declared ++ [c] } }).raiseEmergency

/-- R494: one more skipped sixteenth, up to 14. -/
def DiePower.skipMore (d : DiePower) : DiePower := { d with n := min 14 (d.n + 1) }

/-- R494: package power above 0.97 Pmax. -/
def State.overBudget (s : State) : Bool := 97 * s.fuses.part.pmax < 100 * s.power.avg1ms

/-- R492, R494, R495: a sample of the input; the step of the power rule comes with every tenth. Bellows samples before a start and after a
trip too (R516, R521), and then acts on nothing. -/
def execBellowsSample (avg50us avg1ms vinMv : Nat) (outFor10us : Bool) (s : State) : Host.Outcome State Fault Refusal := s.after <| s.retime <|
  if !s.pins.pgood then .next s
  else
    let f := s.fresh
    let s := { f.2 with power := { s.power with
      avg50us := avg50us, avg1ms := avg1ms, vinMv := vinMv, samples := s.power.samples + 1, energyMj := f.1 } }
    if s.pins.tripLow || s.pins.inReset then .next s
    else
      let s := if s.overBudget && s.power.samples % 10 == 0 then
          { s with power := { s.power with dies := updIf (fun d => d.kind == .c) DiePower.skipMore s.power.dies } }
        else s
      let s := s.declare .power (12 * s.fuses.part.pmax < 10 * avg50us)
      let s := s.declare .inputVoltage (outFor10us && (vinMv < 43000 || 59000 < vinMv))
      .next s.applyEmergencies

/-- R497, R521: a trip stops every PLL and asserts THERMTRIP_n; the device holds no state afterwards but the trip and its site. -/
def State.trip (s : State) (site : Nat) : State :=
  { s.restart s.bar0.resetCause with
    pins := { s.pins with tripLow := true, inReset := true }
    power := { s.power with tripped := true, tripSite := BitVec.ofNat 16 site } }

/-- R492, R494, R495, R497: a die's agent reads its sensors. Time counted since the last reading is a free value (log 11). -/
def execDieSensorRead (kind : DieKind) (die : Nat) (tempC : Int) (s : State) : Host.Outcome State Fault Refusal := s.after <| s.retime <|
  if !s.pins.pgood || s.pins.inReset || s.pins.tripLow || !s.fuses.part.hasDie kind die then .next s
  else
    let f := s.fresh
    let s := f.2.modDie kind die fun d =>
      { d with
        tempC := tempC
        peakC := max d.peakC tempC
        levelNs := d.levelNs.set d.level f.1
        bellowsNs := if 0 < d.n then f.1 else d.bellowsNs
        skipped := if 0 < d.n then f.1 else d.skipped }
    if 125 ≤ tempC then .next (s.trip (die + kind.code * 2 ^ 8))
    else
      let s := if kind == .c && 105 ≤ tempC then s.modDie kind die DiePower.skipMore else s
      .next (s.declare (.thermalDie kind die) (110 ≤ tempC)).applyEmergencies

/-- R492, R495, R497, R498: a controller reads its stack's temperature. -/
def execStackSensorRead (tier : Space) (stack : Nat) (tempC : Int) (s : State) : Host.Outcome State Fault Refusal := s.after <| s.retime <|
  if !s.pins.pgood || s.pins.inReset || s.pins.tripLow || (s.stack? tier stack).isNone then .next s
  else
    let f := s.fresh
    let s := f.2.modStack tier stack fun x =>
      { x with
        tempC := tempC
        counters := { x.counters with throttleNs := if rateLimit x.tempC < 100 || rateLimit tempC < 100 then f.1 else x.counters.throttleNs } }
    if 115 ≤ tempC then .next (s.trip (stack + 3 * 2 ^ 8))
    else .next (s.declare (.thermalStack tier stack) (105 ≤ tempC)).applyEmergencies

/-- R495: the release condition of a cause, as the last readings stand. -/
def State.released (s : State) (c : Cause) : Bool :=
  match c with
  | .power => 10 * s.power.avg1ms < 8 * s.fuses.part.pmax
  | .thermalDie k d => (match s.die? k d with | some x => x.tempC < 100 | none => false)
  | .thermalStack t k => (match s.stack? t k with | some x => x.tempC < 100 | none => false)
  | .inputVoltage => 44000 ≤ s.power.vinMv && s.power.vinMv ≤ 58000

/-- R491, R496: the bit of a cause and the site its record names. -/
def causeSite (c : Cause) : Nat × Nat × Nat :=
  match c with
  | .power => (1, 7, 0)
  | .thermalDie k d => (2, k.code, d)
  | .thermalStack t k => (4, t.siteKind, k)
  | .inputVoltage => (8, 7, 0)

/-- R495, R496: a release condition has held 10 ms. -/
def execEmergencyClear (cause : Cause) (durationMs : Nat) (s : State) : Host.Outcome State Fault Refusal := s.after <| s.retime <|
  if !s.power.declared.contains cause || !s.released cause || s.pins.tripLow then .next s
  else
    let s := { s with power := { s.power with declared := s.power.declared.filter fun c => c != cause } }
    let s := s.applyEmergencies.raiseEmergency
    let site := causeSite cause
    if s.fwRuns then
      .next (s.log { cls := 0x0050, severity := 0, siteKind := site.2.1, site := site.2.2, unit := 0xFFFF, injected := false,
                     payload := [site.1, durationMs] })
    else .next s

/-- R494: with no rule or cause holding N up for 1 ms, N falls by one. -/
def execSkipStepDown (cdie : Nat) (s : State) : Host.Outcome State Fault Refusal := s.after <| s.retime <|
  if s.overBudget || s.power.declared.any (forces s.fuses.part cdie) then .next s
  else
    match s.die? .c cdie with
    | none => .next s
    | some d => if 105 ≤ d.tempC then .next s else .next (s.modDie .c cdie fun d => { d with n := d.n - 1 })

/-- R488: one level down, not below 5. -/
def DiePower.levelDown (d : DiePower) (power : Bool) : DiePower :=
  { d with level := min 5 (d.level + 1), goodEvals := 0, fwPower := d.fwPower || power, fwThermal := d.fwThermal || !power }

/-- R488 rule 4: one level up after ten good evaluations. -/
def DiePower.evaluate (d : DiePower) (good : Bool) : DiePower :=
  if !good then { d with goodEvals := 0 }
  else if d.goodEvals + 1 < 10 then { d with goodEvals := d.goodEvals + 1 }
  else
    let level := d.level - 1
    { d with goodEvals := 0, level := level, fwPower := d.fwPower && level != 0, fwThermal := d.fwThermal && level != 0 }

/-- R488: firmware's evaluation, every 1 ms; its rules in order (log 23). -/
def execPowerLoopTick (avg10ms : Nat) (s : State) : Host.Outcome State Fault Refusal := s.after <| s.retime <|
  if !s.fwRuns || s.fw.activation == .handing then .next s
  else
    let p := { s.power with avg10ms := avg10ms }
    let top := ((p.dies.filter fun d => d.kind == .c).map fun d => d.level).foldl min 5
    let overCap := p.capW < avg10ms
    let other := p.dies.any fun d => d.kind != .c && p.targetC < d.tempC
    let otherCool := p.dies.all fun d => d.kind == .c || d.tempC + 3 ≤ p.targetC
    let one (d : DiePower) : DiePower :=
      if d.kind != .c then d
      else
        let hot := (p.targetC : Int) < d.tempC
        let d1 := if overCap && d.level == top then d.levelDown true else d
        let d2 := if hot then d1.levelDown false else d1
        let d3 := if other then d2.levelDown false else d2
        d3.evaluate (100 * avg10ms < 95 * p.capW && d.tempC + 3 ≤ p.targetC && otherCool)
    .next { s with power := { p with dies := p.dies.map one } }

/-- R508: every 10 ms firmware correlates every counter against the reference. -/
def execTimestampRecorrelate (s : State) : Host.Outcome State Fault Refusal := s.after <|
  .next (if s.fwRuns then s.correlate else s)

/-! ## Telemetry and policy (R489, R491) -/

/-- R491: hottest die or stack sensor, 255 at or above 255. -/
def State.tempMax (s : State) : Nat :=
  let t := (s.power.dies.map fun d => d.tempC) ++ (s.memStacks.map fun x => x.tempC)
  min 255 ((t.foldl max 0).toNat)

/-- R491: the THROTTLE bits. -/
def State.throttle (s : State) : Nat :=
  let c := s.power.dies.filter fun d => d.kind == .c
  bit (c.any fun d => d.fwPower && d.level != 0) + 2 * bit (c.any fun d => d.fwThermal && d.level != 0)
    + 4 * bit (c.any fun d => d.n != 0) + 8 * bit (s.memStacks.any fun x => s.stackRate x < 100)

/-- R491: the EMERGENCY bits. -/
def State.emergency (s : State) : Nat :=
  bit (s.power.declared.contains .power)
    + 2 * bit (s.power.declared.any fun c => match c with | .thermalDie _ _ => true | _ => false)
    + 4 * bit (s.power.declared.any fun c => match c with | .thermalStack _ _ => true | _ => false)
    + 8 * bit (s.power.declared.contains .inputVoltage)

def telemetryBody (_ : List Byte) (s : State) : Answer × State :=
  (ansOk (leBytes 2 s.power.avg10ms ++ leBytes 1 s.tempMax ++ leBytes 1 s.throttle ++ leBytes 1 s.emergency), s)

def execGetTelemetry (carrel : Nat) (s : State) : Host.Outcome State Fault Refusal := s.after <| takeRing carrel 0x0061 telemetryBody s

/-- R489: SET_POWER_POLICY. -/
def powerPolicyBody (pl : List Byte) (s : State) : Answer × State :=
  let p := s.fuses.part
  let cap := get16 pl 0
  let target := get8 pl 2
  if cap != 0 && (cap < ceilDiv (4 * p.pmax) 10 || p.pmax < cap) then (ansField 0, s)
  else if target != 0 && (target < 70 || 100 < target) then (ansField 2, s)
  else
    let capW := if cap == 0 then p.pmax else cap
    let targetC := if target == 0 then 90 else target
    (ansOk (leBytes 2 capW), { s with power := { s.power with capW := capW, targetC := targetC } })

def execSetPowerPolicy (s : State) : Host.Outcome State Fault Refusal := s.after <| takeRing 0 0x0060 powerPolicyBody s

/-- R507: whether the named counter exists, or the first bad field. -/
def timestampBad (p : Part) (kind die unit : Nat) : Option Nat :=
  if kind == 0 then
    if p.c ≤ die then some 1 else if unit < 16 || unit == 0xFFFF then none else some 2
  else if kind == 1 then if p.x ≤ die then some 1 else if unit == 0xFFFF then none else some 2
  else if kind == 2 then if p.d / 2 ≤ die then some 1 else if unit == 0xFFFF then none else some 2
  else if kind == 3 then if die != 0 then some 1 else if unit == 0xFFFF then none else some 2
  else some 0

/-- R508: the counter that a timestamp samples; the reference is X-die 0's Archivist counter (R507), and a cluster whose domain is off is
timed by its die's C_SPINE counter (R509). -/
def State.sampled (s : State) (kind die unit : Nat) : Nat × Nat × Nat :=
  if kind == 3 then (1, 0, 0xFFFF)
  else if kind == 0 && s.power.gated.contains (.cluster ⟨die, unit⟩) then (0, die, 0xFFFF)
  else (kind, die, unit)

/-- R42, R507 to R509: GET_TIMESTAMP: the counter sampled, converted by the offset and the rate kept for it. BOUND_NS is one of 0 to 125
(log 11), and 0 for the reference. -/
def timestampBody (pl : List Byte) (s : State) : Answer × State :=
  let kind := get8 pl 0
  match timestampBad s.fuses.part kind (get8 pl 1) (get16 pl 2) with
  | some f => (ansField f, s)
  | none =>
    let c := s.sampled kind (get8 pl 1) (get16 pl 2)
    let a := s.ticked c.1 c.2.1 c.2.2
    let b := a.2.fresh
    let named := if kind == 3 then (3, 0, 0xFFFF) else c
    let fit := s.power.clocks.find? fun x => x.kind == named.1 && x.die == named.2.1 && x.unit == named.2.2
    let ns := fit.elim a.1 fun x => x.offset + a.1 * x.rate
    (ansOk (leBytes 8 ns.toNat ++ leBytes 4 (if kind == 3 then 0 else b.1.toNat % 126)), b.2)

def execGetTimestamp (carrel : Nat) (s : State) : Host.Outcome State Fault Refusal := s.after <| takeRing carrel 0x0017 timestampBody s

/-! ## SMBus (R522, R523) -/

/-- R94: START_STATUS. -/
def Start.code : Start → Nat
  | .off => 0
  | .romRunning => 1
  | .romReady => 2
  | .fwLoading => 3
  | .fwRejected => 4
  | .fwStarting => 5
  | .ready => 6
  | .shortfall => 7
  | .romFailed => 8
  | .fwFailed => 9

/-- R522: a read of the package's target: the bytes and their PEC, or a NACK at a wrong PEC. -/
def State.smbRead (s : State) (code : Nat) (bytes : List Byte) (pecOk : Bool) : State :=
  if !s.pins.pgood then s
  else if !pecOk then { s with out := s.out ++ [.smbusNack] }
  else
    let head := [0x94#8, BitVec.ofNat 8 code, 0x95#8]
    { s with out := s.out ++ [.smbus (bytes ++ [BitVec.ofNat 8 (pec (head ++ bytes))])] }

/-- R523: the STATUS word. -/
def State.statusWord (s : State) : Nat :=
  s.fw.start.code + 16 * s.emergency + 256 * bit s.power.tripped + 512 * bit (s.throttle != 0)

def execSmbStatus (pecOk : Bool) (s : State) : Host.Outcome State Fault Refusal := s.after <|
  .next (s.smbRead 0x01 (leBytes 2 s.statusWord) pecOk)

def execSmbPowerW (pecOk : Bool) (s : State) : Host.Outcome State Fault Refusal := s.after <|
  .next (s.smbRead 0x02 (leBytes 2 s.power.avg1ms) pecOk)

def execSmbVinMv (pecOk : Bool) (s : State) : Host.Outcome State Fault Refusal := s.after <|
  .next (s.smbRead 0x03 (leBytes 2 s.power.vinMv) pecOk)

def execSmbTempMaxC (pecOk : Bool) (s : State) : Host.Outcome State Fault Refusal := s.after <|
  .next (s.smbRead 0x04 (leBytes 1 s.tempMax) pecOk)

def execSmbPmaxW (pecOk : Bool) (s : State) : Host.Outcome State Fault Refusal := s.after <|
  .next (s.smbRead 0x05 (leBytes 2 s.fuses.part.pmax) pecOk)

def execSmbTripSite (pecOk : Bool) (s : State) : Host.Outcome State Fault Refusal := s.after <|
  .next (s.smbRead 0x06 (leBytes 2 s.power.tripSite.toNat) pecOk)

/-- R522: a Block Read: the byte count, then the serial number. -/
def execSmbSerial (pecOk : Bool) (s : State) : Host.Outcome State Fault Refusal := s.after <|
  .next (s.smbRead 0x07 (12#8 :: leBytes 12 s.fuses.serial.toNat) pecOk)

end Sys2Proof.Machine
end

