-- ==== Sys2Proof/Machine/Tables.lean ====
section
/-! DEFINITION. Reloading the double-banked tables (R187 to R189, R305, R306) and the layer policies of the range monitor (R251). -/

namespace Sys2Proof.Machine

/-! ## RELOAD_TABLE -/

/-- R306: entries of a table, and bytes of each. -/
def tableShape (id : Nat) : Nat × Nat := if id == 1 then (256, 16) else if id == 2 then (8192, 4) else (2048, 8)

/-- R305: a step word that RELOAD_TABLE refuses. -/
def stepBad (w : Nat) : Bool :=
  let imm := w / 2 ^ 32
  8 ≤ field w 3 0 || field w 31 15 != 0
    || (field w 3 0 == 3 && (4096 < field imm 11 0 + field imm 23 12 || field imm 23 12 < 2))

/-- The engines that hold a copy of a table (R187): the special functions and programs are the vector engines' alone. -/
def Part.tableUsers (p : Part) (id : Nat) : List TableUser :=
  let cl := (List.range (16 * p.c)).map clusterOf
  if id == 1 then
    cl.map TableUser.matrix ++ cl.map TableUser.vector ++ (List.range p.c).map (TableUser.update .c)
      ++ (List.range (p.d / 2)).map (TableUser.update .d) ++ (List.range p.x).map TableUser.routing
      ++ (List.range p.x).map TableUser.consort
  else cl.map TableUser.vector

def Tables.table (t : Tables) (id : Nat) : Banked := if id == 1 then t.antilog else if id == 2 then t.function else t.programs

def Tables.setTable (t : Tables) (id : Nat) (b : Banked) : Tables :=
  if id == 1 then { t with antilog := b } else if id == 2 then { t with function := b } else { t with programs := b }

/-- R188, R305, R306: RELOAD_TABLE. The source is read, and checked, when the command is taken. -/
def reloadTableBody (carrel : Nat) (pl : List Byte) (s : State) : Answer × State :=
  let va := get64 pl 0
  let id := get16 pl 12
  let sh := tableShape id
  let known := 1 ≤ id && id ≤ 3
  match firstBad [(0, va % 64 != 0), (8, known && get32 pl 8 != sh.1), (12, !known)] with
  | some f => (ansField f, s)
  | none =>
    if (s.tables.table id).reload.isSome then (ans stBusy, s)
    else
      match s.commandRead va (sh.1 * sh.2) with
      | (.error a, s) => (a, s)
      | (.ok bytes, s) =>
        let es := (chunks sh.2 sh.1 bytes).map leNat
        match (if id == 3 then es.findIdx? stepBad else none) with
        | some i => (ansField i, s)
        | none =>
          let t := s.newTicket carrel
          let r : Reload := ⟨some carrel, t.1, s.tagOf carrel, es, false, s.fuses.part.tableUsers id⟩
          (ansAccepted t.1,
            { t.2 with tables := t.2.tables.setTable id { t.2.tables.table id with reload := some r } })

def execReloadTable (carrel : Nat) (s : State) : Host.Outcome State Fault Refusal := s.after <|
  takeRing carrel 0x0022 (reloadTableBody carrel) s

/-! ## BANK_SWAP -/

/-- The banks of a table that operations are bound to (R187): matrix operations and drains once begun, pre-empted ones included; vector
instructions; ROUTE descriptors; reductions and updates. -/
def State.boundBanks (s : State) (id : Nat) : List Bool :=
  let vec (op : VectorOp) : Bool := if id == 1 then op.bank else if id == 2 then op.fbank else op.pbank
  let cl := s.clusters.flatMap fun c =>
    (if id == 1 then ((c.matrix.active.toList ++ c.matrix.preempted.toList).filter fun op => !op.added.isEmpty).map fun op => op.bank else [])
      ++ ((c.vector.active.toList.filter fun op => op.opened).map vec)
  if id != 1 then cl
  else
    cl ++ s.routers.flatMap (fun r => (r.active.toList.filter fun op => field (get8 op.work.desc 0) 5 4 == 0 && op.phase ≤ 1).map fun op => op.bank)
      ++ s.consorts.flatMap (fun c => ((c.active.toList ++ c.running).filter fun op => op.begun).map fun op => op.bank)
      ++ (s.update.ops.filter fun op => op.started).map fun op => op.bank

/-- The engine of a copy has an operation in progress. -/
def State.userBusy (s : State) (u : TableUser) : Bool :=
  match u with
  | .matrix e => (match s.cluster? e with | some c => c.matrix.active.isSome | none => false)
  | .vector e => (match s.cluster? e with | some c => c.vector.active.isSome | none => false)
  | .update _ _ => s.update.ops.any fun op => op.started && op.ended.isNone
  | .routing x => (match s.routers[x]? with | some r => r.active.isSome | none => false)
  | .consort x => (match s.consorts[x]? with | some c => c.active.isSome | none => false)

/-- R188 step 1: the domains whose copies a reload writes. -/
def userDomain : TableUser → Domain
  | .matrix e => .cluster e
  | .vector e => .cluster e
  | .update k d => .update k d
  | .routing x => .engines x
  | .consort x => .consort x

/-- R188 step 1: the inactive bank of every copy is written, once no operation is bound to it; what it writes becomes the bank that engines
swap to. -/
def Banked.write (b : Banked) (r : Reload) : Banked :=
  let new := !b.active
  { b with
    bank0 := if new then b.bank0 else some r.data
    bank1 := if new then some r.data else b.bank1
    active := new
    reload := some { r with written := true } }

/-- R188 step 3: the completion of a reload. -/
def State.postReload (s : State) (r : Reload) : State :=
  match r.carrel with
  | none => s
  | some k => s.post k { seq := 0#32, ticket := r.ticket, opcode := 0x0022, queue := 0xFFFF, tag := r.tag, status := stOk, detail := 0,
                         lo := 0#32, hi := 0#32 }

/-- R188, R189: BANK_SWAP; the first writes the inactive banks, not while the completion could not be held (R108). -/
def execBankSwap (user : TableUser) (tableId : Nat) (s : State) : Host.Outcome State Fault Refusal := s.after <|
  if tableId < 1 || 3 < tableId then .next s
  else
    let b := s.tables.table tableId
    match b.reload with
    | none => .next s
    | some r =>
      if !r.left.contains user || s.userBusy user || (!r.written && r.carrel.any s.carrelFull) then .next s
      else if !r.written && (s.boundBanks tableId).contains (!b.active) then .next s
      else
        let s := if r.written then s else (r.left.map userDomain).foldl State.powerUp s
        let b := if r.written then b else b.write r
        let r := { r with written := true, left := r.left.filter fun u => u != user }
        if r.left.isEmpty then
          .next (({ s with tables := s.tables.setTable tableId { b with reload := none } }).postReload r)
        else .next { s with tables := s.tables.setTable tableId { b with reload := some r } }

/-! ## SET_LAYER_POLICY (R251) -/

/-- R251: a policy that breaks its table. -/
def policyBad (d : List Byte) : Bool :=
  let w := get32 d 0
  let okFmt (f : Nat) : Bool := fL5 ≤ f && f ≤ fL16
  !okFmt (field w 3 0) || !okFmt (field w 7 4) || field w 23 16 == 0 || field w 31 24 != 0 || get16 d 6 != 0
    || (addrBad d 8).2 || descAddr d 8 % 32 != 0

/-- R251: SET_LAYER_POLICY. LAYER 0xFFFF names no layer (R233), and more than 16 bits none that a descriptor can name (DEDUCED, log 30). -/
def setLayerPolicyBody (pl : List Byte) (s : State) : Answer × State :=
  let layer := get32 pl 8
  if 65535 ≤ layer then (ansField 8, s)
  else
    match s.commandRead (get64 pl 0) 16 with
    | (.error a, s) => (a, s)
    | (.ok d, s) =>
      let others := s.policies.filter fun p => p.layer != layer
      let w := get32 d 0
      if field w 15 8 == 0 then (ansOk [], { s with policies := others })
      else if policyBad d then (ansField 0, s)
      else if 16384 ≤ others.length then (ans stNoResource, s)
      else
        (ansOk [], { s with
          policies := others ++ [⟨layer, d, List.replicate 10 0, [], [], field w 3 0, field w 7 4, 0⟩] })

def execSetLayerPolicy (carrel : Nat) (s : State) : Host.Outcome State Fault Refusal := s.after <|
  takeRing carrel 0x005E setLayerPolicyBody s

end Sys2Proof.Machine
end

