-- ==== Sys2Proof/Machine/Functions.lean ====
section
/-! DEFINITION. The special functions on values (R290, R291, R293, R295 to R300, R307): exact functions approximated far inside their
bounds, and the device's internal result as a free point of each bound. -/

namespace Sys2Proof.Machine

/-! ## Approximations, in fixed point of 2^-128 -/

def one128 : Nat := 2 ^ 128

/-- ⌊π · 2^512⌋, by Machin's formula. -/
def atanInv (k : Nat) : Nat → Nat → Nat → Int
  | 0, _, _ => 0
  | fuel + 1, n, t => if t == 0 then 0 else ((t / (2 * n + 1) : Nat) : Int) - atanInv k fuel (n + 1) (t / (k * k))

def piFix : Nat := (4 * (4 * atanInv 5 400 0 (2 ^ 540 / 5) - atanInv 239 400 0 (2 ^ 540 / 239))).toNat / 2 ^ 28

def piRat : Rat := (piFix : Rat) / ((2 ^ 512 : Nat) : Rat)

/-- ⌊q · 2^n⌋. -/
def fixOf (n : Nat) (q : Rat) : Int := q.num * 2 ^ n / q.den

/-- 2^q; exponents past ±3,000 stand for themselves. -/
def exp2Rat (q : Rat) : Rat :=
  let q := max (-3000) (min 3000 q)
  let z := fixOf 64 q
  mkRat (exp2Fix (z % 2 ^ 64).toNat) one128 * pow2 (z / 2 ^ 64)

def log2e : Rat := mkRat (2 ^ 256) (ln2Fix * 2 ^ 128)

/-- e^q. -/
def expRat (q : Rat) : Rat := exp2Rat (max (-3000) (min 3000 q) * log2e)

/-- ln q for q > 0. -/
def lnRat (q : Rat) : Rat := mkRat (log2Rat q) (2 ^ 64) * mkRat ln2Fix one128

/-- √q for q ≥ 0. -/
def sqrtRat (q : Rat) : Rat :=
  if q == 0 then 0
  else
    let e := floorLog2 q / 2
    let m := q / pow2 (2 * e)
    mkRat (Nat.sqrt (fixOf 256 m).toNat) (2 ^ 128) * pow2 e

def sigmoidRat (q : Rat) : Rat :=
  if q < 0 then
    let t := expRat q
    t / (1 + t)
  else 1 / (1 + expRat (-q))

/-- tanh of q ≥ 0. -/
def tanhPos (q : Rat) : Rat :=
  if q < mkRat 1 4096 then q - q * q * q / 3 + 2 * q * q * q * q * q / 15
  else
    let t := expRat (-2 * q)
    (1 - t) / (1 + t)

def tanhRat (q : Rat) : Rat := if q < 0 then -tanhPos (-q) else tanhPos q

/-- Σ q^(2n+1) / (2n+1)!!, in fixed point, for 0 ≤ q ≤ 8. -/
def oddSeries (x2 : Nat) : Nat → Nat → Nat → Nat
  | 0, _, _ => 0
  | fuel + 1, n, t => t + oddSeries x2 fuel (n + 1) (t * x2 / one128 / (2 * n + 3))

/-- a + 1/(a + 2/(a + 3/(a + …))), from its n-th level up: the quotient of the normal density by its upper tail. -/
def tailQuotient (a : Rat) : Nat → Rat → Rat
  | 0, t => t
  | n + 1, t => tailQuotient a n (mkRat (fixOf 128 (a + ((n + 1 : Nat) : Rat) / t)) one128)

/-- Φ(q), the normal distribution. -/
def phiRat (q : Rat) : Rat :=
  let a := if q < 0 then -q else q
  if 8 < a then
    let tail := expRat (-(a * a) / 2) / sqrtRat (2 * piRat) / tailQuotient a 60 a
    if q < 0 then tail else 1 - tail
  else
    let x := (fixOf 128 a).toNat
    let series := mkRat (oddSeries (x * x / one128) 160 0 x) one128
    let half := expRat (-(a * a) / 2) / sqrtRat (2 * piRat) * series
    if q < 0 then mkRat 1 2 - half else mkRat 1 2 + half

/-- R290: the variants of GELU. -/
def geluRat (variant : Nat) (q : Rat) : Rat :=
  if variant == 0 then q * phiRat q
  else if variant == 1 then
    q / 2 * (1 + tanhRat (max (-100) (min 100 (sqrtRat (2 / piRat) * (q + mkRat 44715 1000000 * q * q * q)))))
  else q * sigmoidRat q

/-- Σ ±x^k/k! over odd (first = 1) or even (first = 0) k, in fixed point. -/
def trigSeries (x2 : Nat) : Nat → Nat → Nat → Int
  | 0, _, _ => 0
  | fuel + 1, k, t => (t : Int) - trigSeries x2 fuel (k + 2) (t * x2 / one128 / ((k + 1) * (k + 2)))

def sinSmall (r : Rat) : Rat :=
  let x := (fixOf 128 r).toNat
  mkRat (trigSeries (x * x / one128) 40 1 x) one128

def cosSmall (r : Rat) : Rat :=
  let x := (fixOf 128 r).toNat
  mkRat (trigSeries (x * x / one128) 40 0 one128) one128

/-- R299: sin of q, or of q + π/2. -/
def sinRat (q : Rat) (quarter : Nat) : Rat :=
  let h := piRat / 2
  let k := (q / h).floor
  let r := q - (k : Rat) * h
  match ((k + quarter) % 4).toNat with
  | 0 => sinSmall r
  | 1 => cosSmall r
  | 2 => -sinSmall r
  | _ => -cosSmall r

/-! ## Internal results (R293, R295) -/

/-- A result's bound: relative δ, absolute α, and their sum. -/
structure Bound where
  rel : Rat
  abs : Rat

/-- The bound at an exact value. -/
def Bound.width (b : Bound) (f : Rat) : Rat := b.abs + b.rel * (if f < 0 then -f else f)

/-- R291: q taken down to a significand of 30 fraction bits (DEDUCED, log 33: as R163's). cap: the place of the last bit is never higher
(LOG2's bound needs more bits of large results). -/
def gridDown (cap : Int) (q : Rat) : Rat :=
  if q == 0 then 0
  else
    let u := pow2 (min (floorLog2 (if q < 0 then -q else q) - 30) cap)
    ((q / u).floor : Rat) * u

def gridUp (cap : Int) (q : Rat) : Rat := -(gridDown cap (-q))

/-- No cap: no result has so high a last bit. -/
def noCap : Int := 4096

/-- What names an internal result beside its exact value: opcode and variant, the interval on which the function is monotone (R298), further
operands; and, once they have been replaced, the tables' contents (R295). -/
structure Curve where
  op       : Nat
  interval : Int
  key      : List Nat
  tables   : Option (List Nat)

/-- R291, R293, R298: the internal result for the exact value f: a 30-bit significand between lo and hi that rises with f, otherwise free; once
the tables have been replaced, free between no bounds (log 16). -/
def Curve.point (c : Curve) (cap : Int) (lo hi f : Rat) : Rat :=
  match c.tables with
  | none => max (gridUp cap lo) (min (gridDown cap hi) (gridDown cap (Config.functionCurve c.op c.interval c.key f)))
  | some t => gridDown cap (Config.functionFree c.op c.interval (c.key ++ t) f)

def relBound (n : Int) : Bound := ⟨pow2 n, 0⟩
def absBound (n : Int) : Bound := ⟨0, pow2 n⟩

/-- R297: clamps to a function's range. -/
def clampRat (lo hi q : Rat) : Rat := max lo (min hi q)

/-! ## Special functions of one operand (R290, R296, R297) -/

/-- log2 of a number in log form, exact but for a tail factor of 3 (to 2^-64). -/
def logOfNum (x : Num) : Rat :=
  match x with
  | .log _ p j sc => mkRat p 8388608 + mkRat (log2Rat (j : Rat)) (2 ^ 64) + (sc : Rat)
  | .lin _ m => mkRat (log2Rat m) (2 ^ 64)
  | _ => 0

def isLog (x : Num) : Bool :=
  match x with
  | .log _ _ _ _ => true
  | _ => false

/-- A domain error (R296). -/
def domainError : Internal × List Ev := (.num .nan, [.invalid])

def inum (x : Num) : Internal × List Ev := (.num x, [])

/-- R298: where each variant of GELU has its minimum. -/
def geluMin (variant : Nat) : Rat :=
  mkRat (if variant == 0 then -255821399453827270153361140761363297367
    else if variant == 1 then -256049353719020698320296226462179865168
    else -435038940635233535303200903172453583441) one128

/-- The value of a function: its exact value and its internal result. -/
def fval (op : Nat) (f y : Rat) : Internal × List Ev := (.limited op f (numOfRat y), [])

/-- R290 to R299: opcodes 0x40 to 0x4B on one operand. lTarget: D is an L format. tables: their contents once replaced. -/
def special (tables : Option (List Nat)) (lTarget : Bool) (op variant : Nat) (a : Num) : Internal × List Ev :=
  let q := realRat a
  let curve (i : Int) : Curve := ⟨op + 256 * variant, i, [], tables⟩
  let free (i : Int) (f : Rat) (b : Bound) : Rat := (curve i).point noCap (f - b.width f) (f + b.width f) f
  match op with
  | 0x40 =>
    match a with
    | .nan => inum .nan
    | .inf neg => inum (if neg then .zero false else .inf false)
    | .zero _ => inum (.lin false 1)
    | _ => if lTarget then (.logOf false q, []) else (let f := exp2Rat q; fval op f (max 0 (free 0 f (relBound (-30)))))
  | 0x41 =>
    match a with
    | .nan => inum .nan
    | .inf neg => if neg then domainError else inum (.inf false)
    | .zero _ => inum (.inf true)
    | x => if x.neg? then domainError
      else if isLog x then fval op (logOfNum x) (logOfNum x)
      else
        let f := mkRat (log2Rat q) (2 ^ 64)
        fval op f ((curve 0).point (-26) (f - pow2 (-26)) (f + pow2 (-26)) f)
  | 0x42 =>
    match a with
    | .nan => inum .nan
    | .inf neg => inum (if neg then .zero false else .inf false)
    | .zero _ => inum (.lin false 1)
    | _ => (let f := expRat q; fval op f (max 0 (free 0 f (relBound (-28)))))
  | 0x43 =>
    match a with
    | .nan => inum .nan
    | .inf neg => if neg then domainError else inum (.inf false)
    | .zero _ => inum (.inf true)
    | x => if x.neg? then domainError else (let f := lnRat q; fval op f (free 0 f ⟨pow2 (-29), pow2 (-26)⟩))
  | 0x44 =>
    match a with
    | .nan => inum .nan
    | .inf neg => if neg then domainError else inum (.inf false)
    | .zero n => inum (.zero n)
    | x => if x.neg? then domainError
      else if isLog x && lTarget then (.logOf false (logOfNum x / 2), [])
      else (let f := sqrtRat q; fval op f (max 0 (free 0 f (relBound (-25)))))
  | 0x45 =>
    match a with
    | .nan => inum .nan
    | .inf neg => inum (.zero neg)
    | .zero n => inum (.inf n)
    | x => if isLog x && lTarget then (.logOf x.neg? (-(logOfNum x)), [])
      else fval op (1 / q) (free (bit x.neg?) (1 / q) (relBound (-25)))
  | 0x46 =>
    match a with
    | .nan => inum .nan
    | .inf neg => if neg then domainError else inum (.zero false)
    | .zero n => inum (.inf n)
    | x => if x.neg? then domainError
      else if isLog x && lTarget then (.logOf false (-(logOfNum x / 2)), [])
      else (let f := 1 / sqrtRat q; fval op f (max 0 (free 0 f (relBound (-25)))))
  | 0x47 =>
    match a with
    | .nan => inum .nan
    | .inf neg => inum (if neg then .zero false else .lin false 1)
    | .zero _ => inum (.lin false (mkRat 1 2))
    | _ => (let f := sigmoidRat q; fval op f (clampRat 0 1 (free 0 f (relBound (-24)))))
  | 0x48 =>
    match a with
    | .nan => inum .nan
    | .inf neg => inum (.lin neg 1)
    | .zero n => inum (.zero n)
    | _ => (let f := tanhRat q; fval op f (clampRat (-1) 1 (free 0 f (relBound (-24)))))
  | 0x49 =>
    match a with
    | .nan => inum .nan
    | .inf neg => inum (if neg then .zero true else .inf false)
    | .zero n => inum (.zero n)
    | _ =>
      let f := geluRat variant q
      let m := if f < 0 then -f else f
      fval op f (free (bit (geluMin variant < q)) f (if pow2 (-20) ≤ m then relBound (-22) else absBound (-42)))
  | 0x4A =>
    match a with
    | .nan => inum .nan
    | .inf _ => domainError
    | .zero n => inum (.zero n)
    | _ => (let f := sinRat q 0; fval op f (clampRat (-1) 1 (free (q / piRat + mkRat 1 2).floor f (absBound (-27)))))
  | _ =>
    match a with
    | .nan => inum .nan
    | .inf _ => domainError
    | .zero _ => inum (.lin false 1)
    | _ => (let f := sinRat q 1; fval op f (clampRat (-1) 1 (free (q / piRat).floor f (absBound (-27)))))

/-- R300: the angle of a position: column j (pair offset added) under λ. -/
def posAngle (bank : Option (List Nat)) (lam : Nat) (j : Nat) (p : Rat) : Rat :=
  let prod := (j : Rat) * (((lf32 lam).rat none).getD 0)
  let n := roundCount ((if prod < 0 then -prod else prod) * 8388608) rne 0
  p * antilogRat bank (if prod < 0 then (n : Int) else -(n : Int)) 1 0

/-- R293, R298: the bounds of a position's sine (quarter 0) or cosine (1) at an angle: exact value and width, but that they never turn back
in the last 2^-24 before an extremum, where the width grows faster than the function. -/
def angleBounds (quarter : Nat) (th : Rat) : Rat × Rat :=
  let m := if th < 0 then -th else th
  let at_ (x : Rat) : Rat := sinRat (if th < 0 then -x else x) quarter
  let wide (x : Rat) : Rat := pow2 (-27) + x * pow2 (-24)
  let half : Rat := if quarter == 0 then mkRat 1 2 else 0
  let turn := (((m / piRat + half).floor : Rat) + 1 - half) * piRat - pow2 (-24)
  let lo := at_ m - wide m
  let hi := at_ m + wide m
  if m < turn then (lo, hi)
  else if 0 < at_ turn then (max lo (at_ turn - wide turn), hi)
  else (lo, min hi (at_ turn + wide turn))

/-- R300: POSCODE of a position in column c. -/
def poscode (bank : Option (List Nat)) (tables : Option (List Nat)) (lam offset c : Nat) (a : Num) : Internal × List Ev :=
  match a with
  | .nan => inum .nan
  | .inf _ => domainError
  | x =>
    let j := c / 2 + offset
    let th := posAngle bank lam j (realRat x)
    let q := c % 2
    if th == 0 then inum (if q == 0 then .zero x.neg? else .lin false 1)
    else
      let f := sinRat th q
      let b := angleBounds q th
      let interval := (th / piRat + (if q == 0 then mkRat 1 2 else 0)).floor
      fval 0x4C f (clampRat (-1) 1 ((Curve.mk (0x4C + 256 * q) interval [lam, j] tables).point noCap b.1 b.2 f))

/-! ## Rounding an internal result (R291, R297) -/

/-- R140, R141, R153: a magnitude given by its exact log2, in an L format with the block scale removed. -/
def encodeLogRat (f : Nat) (neg : Bool) (lg : Rat) (rnd subn u : Nat) : Nat × Ev :=
  let fr := lFrac f
  let lg := max (-3000) (min 3000 lg)
  let x := lg * ((2 ^ fr : Nat) : Rat)
  let p := (lg * 8388608).floor
  let rest := fixOf 64 (lg - mkRat p 8388608)
  let m : Mag := if rest == 0 then ⟨1, p⟩ else ⟨mkRat (exp2Fix rest.toNat) one128, p⟩
  if x < (lMin f : Rat) then encodeLMag f neg m rnd subn u false
  else
    let l := x.floor
    let d := x - (l : Rat)
    let mode := if rnd == stoch && ((lMax f : Int) : Rat) < x then rne else rnd
    let l := if d == 0 || mode == rtz then l
      else if mode == stoch then (if u < logP16 fr (fixOf (64 - fr) d).toNat m.r then l + 1 else l)
      else if d < mkRat 1 2 then l else if mkRat 1 2 < d then l + 1 else l + l % 2
    if lMax f < l then (if hasInf f && rnd != rtz then lInfCode f neg else lCode f neg (lMax f), .overflow)
    else (lCode f neg l, .none)

/-- An internal result as a number, for the choice of a block scale; a code takes no part in it. -/
def Internal.toNum (x : Internal) : Num :=
  match x with
  | .num n => n
  | .logOf neg lg =>
    let lg := max (-3000) (min 3000 lg)
    let p := (lg * 8388608).floor
    let rest := fixOf 64 (lg - mkRat p 8388608)
    if rest == 0 then .log neg p 1 0 else .log neg p (exp2Fix rest.toNat / 2 ^ 68) (-60)
  | .ratio neg r p => if isPow2 r then .log neg p 1 (floorLog2 r) else .lin neg (wideRat r p)
  | .limited _ _ n => n
  | .code _ => .nan

/-- R297: the finite limits of a function: 1, and -1, where its range ends there; 0 where it tends to 0. -/
def limitsOf (op : Nat) : List Rat :=
  if op == 0x47 then [0, 1]
  else if op == 0x48 || op == 0x4A || op == 0x4B || op == 0x4C then [1, -1]
  else if op == 0x40 || op == 0x42 || op == 0x45 || op == 0x46 || op == 0x49 then [0]
  else []

/-- R297: the mode in which a value within half a step, or within one step under RTZ, of a limit rounds to it or past it. -/
def stepMode (rnd : Nat) : Nat := if rnd == rtz then rtz else rne

/-- R297: whether a magnitude lies within half a step, or one step under RTZ, of 0 in a format. -/
def nearZero (f : Nat) (sc : Int) (rnd subn : Nat) (v : Rat) : Bool :=
  !(f == fB1) && (encodeNumIn false none f sc (stepMode rnd) subn 0 (.lin false v)).1 == encodeZero f false

/-- The magnitude next below that of a positive code; none: 0. -/
def nextBelow (f : Nat) (sc : Int) (code : Nat) : Option Mag :=
  if f == fT2 then none
  else (decodeNum f (if isL f then lCode f false (signedOf (fmtWidth f - 1) code - 1) else code - 1) sc 0).1.mag

/-- R297: the same of a limit of magnitude 1, where the format holds 1. -/
def nearOne (f : Nat) (sc : Int) (rnd subn : Nat) (v : Rat) : Bool :=
  let one := (encodeNumIn false none f sc rne subn 0 (.lin false 1)).1
  match (decodeNum f one sc 0).1.mag with
  | none => false
  | some m =>
    if f == fB1 || !m.isNat 1 then false
    else if rnd == rtz then
      match nextBelow f sc one with
      | some below => below.lt (ratMag v)
      | none => true
    else (encodeNumIn false none f sc rne subn 0 (.lin false v)).1 == one

/-- R297: the limit a function returns for an operand, when the exact value lies next to it; where 0 and 1 both are as near as that, the
nearer (DEDUCED, log 16). -/
def limitFor (op f : Nat) (sc : Int) (rnd subn : Nat) (exact : Rat) : Option Rat :=
  let v := if exact < 0 then -exact else exact
  let near (l : Rat) : Bool :=
    if l == 0 then nearZero f sc rnd subn v && (v < mkRat 1 2 || !(limitsOf op).contains 1 || !nearOne f sc rnd subn v)
    else (0 < l) == (0 < exact) && nearOne f sc rnd subn v
  if exact == 0 then none else (limitsOf op).find? near

/-- An exact magnitude r · 2^(p / 2^23) of a sign in D's format under its scale. -/
def encodeRatio (f : Nat) (sc : Int) (rnd subn u : Nat) (neg : Bool) (r : Rat) (p : Int) : Nat × Ev :=
  let m : Mag := ⟨r * pow2 (-sc), p⟩
  if f == fB1 then (bit neg, .none)
  else if f == fT2 then (if ternaryOne m rnd u then (if neg then 2 else 1) else if neg then 3 else 0, .none)
  else if isL f then encodeLMag f neg m rnd subn u false
  else if isInt f then encodeInt f neg m rnd u
  else
    let e := encodeLFMag f (wideRat m.r p) rnd subn u
    (signBit f neg + e.1, e.2)

/-- R291, R297: an internal result in D's format under its scale. A value that a limit of 0 takes is rounded, with what it raises, from the
exact value (R144, R145). -/
def encodeInternal (bank : Option (List Nat)) (f : Nat) (sc : Int) (rnd subn u : Nat) (x : Internal) : Nat × Ev :=
  match x with
  | .num n => encodeNum bank f sc rnd subn u n
  | .logOf neg lg => encodeLogRat f neg (lg - (sc : Rat)) rnd subn u
  | .ratio neg r p => encodeRatio f sc rnd subn u neg r p
  | .limited op exact n =>
    match limitFor op f sc rnd subn exact with
    | some l => encodeNumIn false bank f sc (if l == 0 then stepMode rnd else rnd) subn u (numOfRat (if l == 0 then exact else l))
    | none => encodeNumIn false bank f sc rnd subn u n
  | .code c => (c, .none)

/-! ## The soft maximum (R307) -/

/-- R307: exp2d. -/
def exp2d (bank : Option (List Nat)) (x m : Num) : Num × List Ev :=
  if x.isNan || m.isNan then (.nan, [])
  else if (x.isInf && m.isInf && x.neg? == m.neg?) then (.lin false 1, [])
  else if x == .inf true || m == .inf false then (.zero false, [])
  else if m == .inf true then (.inf false, [.overflow])
  else if x.isInf then (.lin false (pow2 511), [])
  else
    let d := ((x.rat bank).getD 0) - ((m.rat bank).getD 0)
    let n := roundCount ((if d < 0 then -d else d) * 8388608) rne 0
    let n := min n (511 * 8388608)
    if d == 0 then (.lin false 1, [])
    else (.lin false (antilogRat bank (if d < 0 then -(n : Int) else n) 1 0), [])

end Sys2Proof.Machine
end

