-- ==== Sys2Proof/Machine/VectorDesc.lean ====
section
/-! DEFINITION. Vector descriptors and their check (R265 to R271, R274, R275, R285, R290, R308, R312, R315). -/

namespace Sys2Proof.Machine

/-! ## The descriptor -/

/-- R267: a stream block. -/
structure Stream where
  base      : Nat
  fmt       : Nat
  scaled    : Bool
  src       : Nat
  stride    : Nat
  rowLen    : Nat
  rowPitch  : Nat
  scaleBase : Nat
  scalePitch : Nat
  deriving DecidableEq, Repr

def streamOf (d : List Byte) (off : Nat) : Stream :=
  let w := get32 d (off + 4)
  { base := if field w 31 30 == 0 then descAddr d off else get32 d off
    fmt := field w 28 25
    scaled := bitAt w 29
    src := field w 31 30
    stride := get16 d (off + 8)
    rowLen := get16 d (off + 0xA)
    rowPitch := get32 d (off + 0xC)
    scaleBase := descAddr d (off + 0x10)
    scalePitch := get32 d (off + 0x18) }

structure VecDesc where
  op        : Nat
  rnd       : Nat
  subn      : Nat
  scaleMode : Nat
  summary   : Nat
  maskEn    : Bool
  maskInv   : Bool
  count     : Nat
  seg       : Nat
  aux0      : Nat
  aux1      : Nat
  a         : Stream
  b         : Stream
  c         : Stream
  d         : Stream
  mask      : Nat
  status    : Nat

def VecDesc.of (d : List Byte) : VecDesc :=
  let w := get32 d 0
  { op := field w 11 4
    rnd := field w 13 12
    subn := field w 15 14
    scaleMode := field w 17 16
    summary := field w 20 18
    maskEn := bitAt w 26
    maskInv := bitAt w 27
    count := get16 d 4 + 1
    seg := get16 d 6 + 1
    aux0 := get32 d 8
    aux1 := get32 d 0xC
    a := streamOf d 0x10
    b := streamOf d 0x30
    c := streamOf d 0x50
    d := streamOf d 0x94
    mask := descAddr d 0xB4
    status := descAddr d 0x88 }

/-- The address in AUX0 and AUX1. -/
def VecDesc.auxAddr (x : VecDesc) : Nat := x.aux0 + x.aux1 % 2 ^ 25 * 2 ^ 32

/-! ## Kinds of operation (R271, R290) -/

def isCompare (op : Nat) : Bool := 0x10 ≤ op && op ≤ 0x13
def isBitwise (op : Nat) : Bool := 0x18 ≤ op && op ≤ 0x1B
def isReduction (op : Nat) : Bool := 0x30 ≤ op && op ≤ 0x33
def isProgram (op : Nat) : Bool := 0x60 ≤ op && op ≤ 0x7F
/-- Opcodes whose streams are records (R308, R315). -/
def isMerge (op : Nat) : Bool := op == 0x50 || op == 0x58

/-- R271, R290: the opcodes there are. -/
def opExists (op : Nat) : Bool :=
  op ≤ 0x0A || isCompare op || isBitwise op || op == 0x20 || op == 0x21 || isReduction op
    || (0x40 ≤ op && op ≤ 0x4C) || (0x50 ≤ op && op ≤ 0x53) || op == 0x58 || op == 0x59 || isProgram op

/-- R271, R290: operations with a source B. A micro-program uses B when the block is not all 0 (R302). -/
def usesB (x : VecDesc) (d : List Byte) : Bool :=
  let op := x.op
  (1 ≤ op && op ≤ 6) || op == 0x0A || isCompare op || (0x18 ≤ op && op ≤ 0x1A) || op == 0x20 || op == 0x21
    || (0x50 ≤ op && op ≤ 0x53) || op == 0x58 || op == 0x59
    || (isProgram op && (List.range 8).any fun i => get32 d (0x30 + 4 * i) != 0)

def usesC (op : Nat) : Bool := op == 0x04 || op == 0x0A || op == 0x53 || op == 0x59

/-- R285: operations that round, and so may use STOCH. -/
def mayRound (op : Nat) : Bool := !isCompare op && !isBitwise op && !isMerge op && op != 0x33

/-- How many elements D receives (R276). -/
def VecDesc.outputs (x : VecDesc) : Nat := if isReduction x.op then ceilDiv x.count x.seg else x.count

/-- R275: how many elements D's stream has: those of SCATTER are AUX0 many. -/
def VecDesc.elements (x : VecDesc) : Nat := if x.op == 0x21 then x.aux0 else x.outputs

/-! ## The check (R285) -/

/-- R267: bad fields of any stream block that is used. -/
def blockBad (d : List Byte) (off : Nat) : List (Nat × Bool) :=
  let w := get32 d (off + 4)
  [(off + 4, field w 31 30 != 0 && field w 24 0 != 0), addrBad d (off + 0x10), (off + 0x1C, get32 d (off + 0x1C) != 0)]

/-- R127, R137, R269, R285: scales and strides of a memory stream. DEDUCED (log 62): SCALE_PITCH of a stream of one row is not looked at, since
R137 lays out the scales of a one-dimensional stream without it. -/
def memoryBad (off : Nat) (b : Stream) : List (Nat × Bool) :=
  [(off + 4, !fmtOk b.fmt || (b.scaled && (!scalable b.fmt || b.src != 0 || b.stride != 1))),
   (off + 8, b.src == 0 && 1 < b.stride && fmtWidth b.fmt < 8),
   (off + 0x18, b.scaled && b.rowLen != 0 && (b.scalePitch % 4 != 0 || b.scalePitch < ceilDiv b.rowLen 32))]

/-- R267, R269: a source block. queued: the instruction comes from a SUBMIT queue. -/
def sourceBad (d : List Byte) (x : VecDesc) (queued isA : Bool) (off : Nat) (b : Stream) : List (Nat × Bool) :=
  blockBad d off ++
    (if b.src == 3 then
      let g := region? (field b.base 6 5) (field b.base 4 0) (field b.base 8 7)
      [(off + 4, !isA || b.fmt != 0 || b.scaled), (off + 8, b.stride != 0 || b.rowLen != 0), (off + 0xC, b.rowPitch != 0),
       (off, 512 ≤ b.base || g.isNone),
       (4, match g with | some r => r.rows * r.cols < x.count | none => false)]
    else (off + 4, b.src == 1 && queued) :: memoryBad off b)

/-- R308, R312, R315: a block that holds records. -/
def recordBad (off : Nat) (b : Stream) : List (Nat × Bool) :=
  [(off + 4, b.src != 0 || b.fmt != fLF32 || b.scaled), (off + 8, b.stride != 1 || b.rowLen != 0), (off + 0xC, b.rowPitch != 0)]

/-- R267, R285: the destination block. -/
def destBad (d : List Byte) (x : VecDesc) : List (Nat × Bool) :=
  let b := x.d
  let row := if b.rowLen == 0 then x.elements else b.rowLen
  blockBad d 0x94 ++ memoryBad 0x94 b ++
    [(0x98, b.src != 0), (0x9C, b.stride == 0),
     (0xA0, b.rowPitch != 0 && 8 * b.rowPitch < fmtWidth b.fmt * ((row - 1) * b.stride + 1))]

/-- R138, R266, R285: SCALE_MODE. -/
def scaleModeBad (x : VecDesc) : Bool :=
  if !x.d.scaled then x.scaleMode != 0
  else if x.scaleMode == 1 then
    isReduction x.op || x.a.src != 0 || !x.a.scaled || x.a.stride != 1 || x.a.rowLen != x.d.rowLen
  else x.scaleMode == 3 && !narrow x.d.fmt

/-- R271, R274, R275, R290, R308, R312, R315, R317: rules of single operations. -/
def operationBad (d : List Byte) (x : VecDesc) : List (Nat × Bool) :=
  let op := x.op
  if isBitwise op then
    [(0, x.rnd != 0 || x.subn != 0 || x.scaleMode != 0), (0x98, x.d.scaled),
     (0x14, x.a.src == 3 || x.a.fmt != x.d.fmt || x.a.scaled), (0x34, op != 0x1B && (x.b.fmt != x.d.fmt || x.b.scaled))]
  else if isCompare op then [(0x98, x.d.fmt != fB1 || x.d.scaled)]
  else if op == 0x09 then []
  else if op == 0x0A then [(0x54, x.c.src != 0 || x.c.fmt != fB1 || x.c.scaled)]
  else if op == 0x20 then [(0x34, x.b.fmt != fI32), (0x14, x.a.src == 3 || x.a.scaled)]
  else if op == 0x21 then [(0x34, x.b.fmt != fI32), (0x98, x.d.scaled)]
  else if op == 0x31 || op == 0x32 then [(0xC, 2 ^ 25 ≤ x.aux1)]
  else if op == 0x33 then
    [(0, x.rnd != 0 || x.subn != 0 || 1 < x.summary), (8, 1 < x.aux0)] ++ recordBad 0x94 x.d
  else if op == 0x49 then [(8, 2 < x.aux0)]
  else if op == 0x4C then [(0xC, 2 ^ 16 ≤ x.aux1)]
  else if op == 0x50 then
    [(0, x.rnd != 0 || x.subn != 0 || 1 < x.summary), (0xC, 2 ^ 25 ≤ x.aux1)]
      ++ recordBad 0x10 x.a ++ recordBad 0x30 x.b ++ recordBad 0x94 x.d
  else if op == 0x58 then
    [(0, x.rnd != 0 || x.subn != 0 || 1 < x.summary), (8, 1 < x.aux0 % 4)]
      ++ recordBad 0x10 x.a ++ recordBad 0x30 x.b ++ recordBad 0x94 x.d
  else if op == 0x59 then [(0xC, 2 ^ 25 ≤ x.aux1)]
  else if isProgram op then zeroBad d 0x50 0x70
  else []

/-- R183, R186: the FLUTTER block at 0x70. -/
def flutterBad (d : List Byte) (uses : Bool) : List (Nat × Bool) :=
  let w := get32 d 0x7C
  let mode := field w 20 19
  [(0x7C, field w 23 21 != 0 || (uses && mode == 3)), (0x80, uses && mode == 2 && descAddr d 0x80 % 64 != 0), addrBad d 0x80,
   (0x84, uses && mode != 2 && get32 d 0x84 != 0)]

/-- R285: the offset of the first bad field of a vector descriptor. -/
def vecBad (d : List Byte) (queued : Bool) : Option Nat :=
  let x := VecDesc.of d
  if descKind d != 3 || field (get32 d 0) 31 28 != 0 || !opExists x.op || x.rnd == 3 || x.subn == 3 || 5 < x.summary
      || scaleModeBad x || (x.rnd == stoch && !mayRound x.op) then some 0
  else
    leastBad (
      [(4, !isReduction x.op && x.seg != 1)]
      ++ sourceBad d x queued true 0x10 x.a
      ++ (if usesB x d then sourceBad d x queued false 0x30 x.b else zeroBad d 0x30 0x50)
      ++ (if usesC x.op then sourceBad d x queued false 0x50 x.c else zeroBad d 0x50 0x70)
      ++ destBad d x ++ operationBad d x ++ flutterBad d (x.rnd == stoch)
      ++ [(0x88, descAddr d 0x88 % 32 != 0), addrBad d 0x88, (0x90, get16 d 0x92 != 0), addrBad d 0xB4, (0xBC, get32 d 0xBC != 0)])

/-! ## Where elements lie (R268) -/

/-- Row and column of an element. -/
def Stream.cell (b : Stream) (e : Nat) : Nat × Nat := if b.rowLen == 0 then (0, e) else (e / b.rowLen, e % b.rowLen)

/-- The first bit of an element, counted from bit 0 of address 0. -/
def Stream.bitOf (b : Stream) (e : Nat) : Nat :=
  let p := b.cell e
  8 * (b.base + p.1 * b.rowPitch) + fmtWidth b.fmt * p.2 * b.stride

/-- The address of an element's scale byte. -/
def Stream.scaleAt (b : Stream) (e : Nat) : Nat :=
  let p := b.cell e
  b.scaleBase + p.1 * b.scalePitch + p.2 / 32

/-- R260: the bytes that n elements of a stream span: lowest, and one past the highest. -/
def Stream.span (b : Stream) (n : Nat) : Nat × Nat :=
  if n == 0 then (b.base, b.base)
  else
    let rows := if b.rowLen == 0 then 1 else ceilDiv n b.rowLen
    let top := (if b.rowLen == 0 then n else min n b.rowLen) - 1
    (b.base, b.base + (rows - 1) * b.rowPitch + ceilDiv (fmtWidth b.fmt * top * b.stride + fmtWidth b.fmt) 8)

def Stream.scaleSpan (b : Stream) (n : Nat) : Nat × Nat :=
  if n == 0 || !b.scaled then (b.scaleBase, b.scaleBase)
  else
    let rows := if b.rowLen == 0 then 1 else ceilDiv n b.rowLen
    let top := (if b.rowLen == 0 then n else min n b.rowLen) - 1
    (b.scaleBase, b.scaleBase + (rows - 1) * b.scalePitch + top / 32 + 1)

def spansMeet (x y : Nat × Nat) : Bool := max x.1 y.1 < min x.2 y.2

/-! ## Overlaps (R262) -/

/-- R262: two streams that coincide exactly. -/
def Stream.coincides (x y : Stream) : Bool :=
  x.base == y.base && x.fmt == y.fmt && x.stride == y.stride && x.rowLen == y.rowLen && x.rowPitch == y.rowPitch

/-- How many bytes a record of a merge's operand, or of a destination, has. -/
def recordBytes (op : Nat) : Nat := if op == 0x50 then 16 else 32

/-- The bytes of the destination: its elements, or its records. -/
def VecDesc.destSpan (x : VecDesc) : Nat × Nat :=
  let n := x.outputs
  if x.op == 0x50 then (x.d.base, x.d.base + 16 * n)
  else if x.op == 0x33 || x.op == 0x58 then
    (x.d.base, x.d.base + (if (x.aux0 % 4 == 0) == (x.op == 0x33) then 16 else 32) * n)
  else x.d.span x.elements

/-- The other destinations: D's scales, the index stream (R279), the corrections (R308). -/
def VecDesc.extraSpans (x : VecDesc) : List (Nat × Nat) :=
  [x.d.scaleSpan x.outputs]
    ++ (if (x.op == 0x31 || x.op == 0x32 || x.op == 0x50) && x.auxAddr != 0 then
        [(x.auxAddr, x.auxAddr + 4 * x.outputs)]
      else [])

/-- R262: the memory that the sources of an instruction span: address, length. -/
def VecDesc.reads (x : VecDesc) (d : List Byte) : List (Nat × Nat) :=
  let sources := [(x.a, true), (x.b, usesB x d), (x.c, usesC x.op)].filter fun p => p.2 && p.1.src == 0
  let spanOf (b : Stream) : Nat × Nat :=
    if isMerge x.op then (b.base, b.base + recordBytes x.op * x.count)
    else b.span (if x.op == 0x20 && b == x.a then x.aux0 else x.count)
  ((sources.flatMap fun p => [spanOf p.1, p.1.scaleSpan x.count])
    ++ (if x.maskEn then [(x.mask, x.mask + ceilDiv x.count 8)] else [])).map fun r => (r.1, r.2 - r.1)

/-- R262, R275: the sources that GATHER or SCATTER read in another order than their elements, where the destination coincides with them. -/
def VecDesc.crossed (x : VecDesc) : List (Nat × Nat) :=
  (([(x.a, x.op == 0x20 || x.op == 0x21), (x.b, x.op == 0x20 || x.op == 0x21)].filter fun p =>
      p.2 && p.1.src == 0 && p.1.coincides x.d).map fun p =>
    p.1.span (if x.op == 0x20 && p.1 == x.a then x.aux0 else x.count)).map fun r => (r.1, r.2 - r.1)

/-- R262: the destination overlaps a source, a mask or a scale array, its own among them, otherwise than exactly. -/
def VecDesc.overlaps (x : VecDesc) (d : List Byte) : Bool :=
  let sources := [(x.a, true), (x.b, usesB x d), (x.c, usesC x.op)].filter fun p => p.2 && p.1.src == 0
  let spanOf (b : Stream) : Nat × Nat :=
    if isMerge x.op then (b.base, b.base + recordBytes x.op * x.count)
    else b.span (if x.op == 0x20 && b == x.a then x.aux0 else x.count)
  let same (b : Stream) : Bool := b.coincides x.d && (!isMerge x.op || x.op == 0x50 || x.aux0 % 4 == 0)
  let sameScale (b : Stream) : Bool := same b && b.scaleBase == x.d.scaleBase && b.scalePitch == x.d.scalePitch
  (sources.any fun p =>
      (!same p.1 && spansMeet (spanOf p.1) x.destSpan) || x.extraSpans.any (spansMeet (spanOf p.1)) && !sameScale p.1
        || spansMeet (p.1.scaleSpan x.count) x.destSpan
        || (!sameScale p.1 && x.extraSpans.any (spansMeet (p.1.scaleSpan x.count))))
    || spansMeet (x.d.scaleSpan x.outputs) x.destSpan
    || (x.maskEn && (x.destSpan :: x.extraSpans).any (spansMeet (x.mask, x.mask + ceilDiv x.count 8)))

end Sys2Proof.Machine
end

