-- ==== Sys2Proof/Machine/VectorMath.lean ====
section
/-! DEFINITION. What the vector engine computes, on values: element operations (R272 to R275, R307, R309, R317), reductions (R276 to
R279), statistics (R312 to R316), record merges (R308, R315), micro-programs (R302 to R304). -/

namespace Sys2Proof.Machine

/-! ## Lanes (R272 step 1) -/

/-- A source element in a lane: its raw bits, its value in the form it is held in, and what reading it raises. -/
structure LaneVal where
  code : Nat
  num  : Num
  evs  : List Ev

/-- R272: B1 and T2 values are held in log form. -/
def heldForm (f : Nat) (sc : Int) (x : Num) : Num :=
  if narrow f then (match x with | .lin neg _ => .log neg 0 1 sc | y => y) else x

def laneOf (f subn code : Nat) (sc : Int) : LaneVal :=
  let d := decodeNum f code sc subn
  ⟨code, heldForm f sc d.1, if d.2 then [.flushed] else []⟩

/-- R221, R269: an accumulator's value: unrounded, in linear form. -/
def accLane (fmt subn : Nat) (v : AccValue) : LaneVal :=
  let d := if fmt == 0 then decodeNum fLF32 v.hi 0 subn else (v.num fmt, false)
  ⟨v.hi, d.1, (if d.2 then [.flushed] else []) ++ if fmt == 2 && v.sat then [.saturated] else []⟩

def LaneVal.none : LaneVal := ⟨0, .zero false, []⟩

/-! ## Element operations -/

/-- R148: INVALID is raised by a NaN made from no NaN. -/
def invalidIf (bad : Bool) (ops : List Num) : List Ev := if bad && !ops.any Num.isNan then [.invalid] else []

/-- R162: the exact product of two logs. -/
def mulLogs (a b : Num) : Num × Bool :=
  match a, b with
  | .log m p j s, .log n q k t => (.log (m != n) (p + q) (j * k) (s + t), false)
  | _, _ => mulNum a b

/-- R272: MUL. -/
def mulHeld (bank : Option (List Nat)) (a b : Num) : Num × Bool :=
  if isLog a && isLog b then mulLogs a b else mulNum (a.linear bank) (b.linear bank)

/-- R272: SCALE. -/
def scaleNum (x : Num) (k : Int) : Num :=
  match x with
  | .log n p j sc => .log n p j (sc + k)
  | .lin n m => .lin n (m * pow2 k)
  | y => y

/-- R273: MAX and MIN. -/
def pick (isMax : Bool) (a b : Num) : Num :=
  if a.isNan || b.isNan then .nan else if (if isMax then a.lt b else b.lt a) then b else a

/-- R273: CMPEQ, CMPLT, CMPLE, CMPUN. -/
def compareNum (op : Nat) (a b : Num) : Bool :=
  let un := a.isNan || b.isNan
  if op == 0x13 then un
  else if un then false
  else if op == 0x10 then !a.lt b && !b.lt a
  else if op == 0x11 then a.lt b
  else !b.lt a

/-- R274: AND, OR, XOR, NOT on raw bits. -/
def bitwise (op w a b : Nat) : Nat :=
  if op == 0x18 then Nat.land a b
  else if op == 0x19 then Nat.lor a b
  else if op == 0x1A then Nat.xor a b
  else 2 ^ w - 1 - a % 2 ^ w

/-- The magnitude r · 2^(p / 2^23) of a finite nonzero number. -/
def ratioOf (x : Num) : Rat × Int :=
  match x with
  | .log _ p j sc => ((j : Rat) * pow2 sc, p)
  | .lin _ m => (m, 0)
  | _ => (0, 0)

/-- R309, R293: the exact quotient of finite nonzero numbers. -/
def quotient (a b : Num) : Internal :=
  let x := ratioOf a
  let y := ratioOf b
  .ratio (a.neg? != b.neg?) (x.1 / y.1) (x.2 - y.2)

/-- R309: a/b with its divisor's rules; others holds the further operands. -/
def divideNum (a b : Num) (others : List Num) : Internal × List Ev :=
  let neg := a.neg? != b.neg?
  if a.isNan || b.isNan || others.any Num.isNan then (.num .nan, [])
  else if b == .zero false then (.num (.zero false), [])
  else if (a.isInf && b.isInf) || (a.isZero && b.isZero) then (.num .nan, [.invalid])
  else if a.isInf || b.isZero then (.num (.inf neg), [])
  else if a.isZero || b.isInf then (.num (.zero neg), [])
  else (quotient a b, [])

/-- R317: (a - MEAN) · RSTD · b + c. -/
def normApply (bank : Option (List Nat)) (rec : List Byte) (a b c : Num) : Num × List Ev :=
  let mean := lf32 (get32 rec 0)
  let rstd := lf32 (get32 rec 8)
  let ops := [a, b, c, mean, rstd, lf32 (get32 rec 4)]
  if ops.any Num.isNan then (.nan, [])
  else
    let d := addNum (a.linear bank) mean.negate
    let p := mulNum d.1 rstd
    let q := mulNum p.1 (b.linear bank)
    let r := addNum q.1 (c.linear bank)
    (r.1, invalidIf (d.2 || p.2 || q.2 || r.2) ops)

/-! ## Micro-programs (R301 to R304) -/

/-- The tables an instruction is bound to: the antilog bank, the contents of those that built-in functions read once one has been replaced
(R295), the steps of a slot, and the upper half of the function table. -/
structure Bound3 where
  bank     : Option (List Nat)
  replaced : Option (List Nat)
  steps    : Nat → Nat
  upper    : Nat → Nat

/-- R304: a linear result rounded to a 30-bit significand (log 33). -/
def round30 (x : Num) : Num :=
  match x with
  | .lin n m =>
    let q := floorLog2 m - 30
    .lin n ((roundCount (m / pow2 q) rne 0 : Rat) * pow2 q)
  | y => y

/-- R302: a value in log form to 23 fraction bits, its tail factor and scale taken in. -/
def toLog23 (x : Num) : Num :=
  match x with
  | .log n p j sc => .log n (roundLog fL32 ⟨(j : Rat) * pow2 sc, p⟩ rne 0 true) 1 0
  | .lin n m => .log n (roundLog fL32 ⟨m, 0⟩ rne 0 true) 1 0
  | y => y

/-- R304: a log beyond ±512. -/
def boundLog (n : Bool) (p : Int) : Num :=
  if 512 * 8388608 < p then .inf n else if p < -512 * 8388608 then .zero n else .log n p 1 0

/-- R304: LADD. -/
def stepLadd (a b : Num) (divide : Bool) : Num × Bool :=
  let neg := a.neg? != b.neg?
  if a.isNan || b.isNan then (.nan, false)
  else if divide then
    if (a.isInf && b.isInf) || (a.isZero && b.isZero) then (.nan, true)
    else if a.isInf || b.isZero then (.inf neg, false)
    else if a.isZero || b.isInf then (.zero neg, false)
    else
      match a, b with
      | .log _ p _ _, .log _ q _ _ => (boundLog neg (p - q), false)
      | _, _ => (.nan, false)
  else
    match a, b with
    | .log _ p _ _, .log _ q _ _ => (boundLog neg (p + q), false)
    | _, _ => mulNum a b

/-- R304: the log of a sum or difference of two logs, big the larger and r the ratio of the two: a free point within 2^-26 of it
(log 16), rounded to 23 fraction bits. -/
def glaLog (big : Int) (r : Rat) : Int :=
  let off := mkRat ((2 * (Config.functionPoint big r.num r.den % 65536) : Nat) + 1 - 65536 : Int) 65536 * pow2 (-26)
  let lg := mkRat (log2Rat r) (2 ^ 64) + off
  let n := roundCount ((if lg < 0 then -lg else lg) * 8388608) rne 0
  big + (if lg < 0 then -(n : Int) else n)

/-- R304: GLA on two logs. -/
def stepGla (a b : Num) : Num × Bool :=
  match a, b with
  | .log m p _ _, .log n q _ _ =>
    let big := max p q
    let neg := if q < p then m else n
    let ratio := exp2Rat (mkRat (min p q - big) 8388608)
    if m == n then (.log m (glaLog big (1 + ratio)) 1 0, false)
    else if p == q then (.zero false, false)
    else (.log neg (glaLog big (1 - ratio)) 1 0, false)
  | x, .zero _ => (match x with
    | .zero _ => addNum a b
    | y => (y, false))
  | .zero _, y => (y, false)
  | _, _ => addNum a b

/-- R304: LOOKUP. -/
def stepLookup (upper : Nat → Nat) (imm : Nat) (a : Num) : Num × Bool :=
  let base := imm % 4096
  let cnt := field imm 23 12
  let sh := signedOf 8 (field imm 31 24)
  let at_ (i : Nat) : Num := lf32 (upper (base + i))
  let top : Nat := cnt - 2
  let go (i : Nat) (u : Num) : Num × Bool :=
    let d := addNum (at_ (i + 1)) (at_ i).negate
    let m := mulNum u d.1
    let r := addNum (at_ i) m.1
    (round30 r.1, (d.2 || m.2 || r.2) && !(at_ i).isNan && !(at_ (i + 1)).isNan)
  match a with
  | .nan => (.nan, false)
  | .inf true => go 0 (.zero false)
  | .inf false => go top (.lin false 1)
  | x =>
    let t := ((x.rat none).getD 0) * pow2 sh
    let i := min (max t.floor 0).toNat top
    go i (numOfRat (min (max (t - (i : Rat)) 0) 1))

/-- R304: XLOG. -/
def stepXlog (bank : Option (List Nat)) (exponent : Bool) (a : Num) : Num :=
  if exponent then
    match a.linear bank with
    | .nan => .nan
    | .inf neg => if neg then .zero false else .inf false
    | x =>
      let q := (x.rat none).getD 0
      let n := roundCount ((if q < 0 then -q else q) * 8388608) rne 0
      let p : Int := if q < 0 then -(n : Int) else n
      if 511 * 8388608 < p then .inf false else if p < -512 * 8388608 then .zero false else .log false p 1 0
  else
    match toLog23 a with
    | .log _ p _ _ => numOfRat (mkRat p 8388608)
    | .zero _ => .inf true
    | .inf _ => .inf false
    | _ => .nan

/-- R304: one step on the registers; none: END. The reserved codes, which no reload accepts, end a program too. -/
def programStep (t : Bound3) (w : Nat) (rs : List Num) : Option (List Num × Bool) :=
  let dst := field w 6 4
  let a := rs.getD (field w 9 7) (.zero false)
  let b := rs.getD (field w 12 10) (.zero false)
  let neg := bitAt w 13
  let imm := field w 63 32
  let put (x : Num) (bad : Bool) : Option (List Num × Bool) := some (rs.set dst x, bad)
  match w % 16 with
  | 1 => let r := stepLadd (toLog23 a) (toLog23 b) neg; put r.1 r.2
  | 2 =>
    let y := toLog23 b
    let r := stepGla (toLog23 a) (if neg then y.negate else y)
    put r.1 (r.2 && !a.isNan && !b.isNan)
  | 3 => let r := stepLookup t.upper imm (a.linear t.bank); put r.1 r.2
  | 4 =>
    let d := (rs.getD dst (.zero false)).linear t.bank
    let m := mulNum d (a.linear t.bank)
    let r := addNum m.1 (lf32 imm)
    put (round30 r.1) ((m.2 || r.2) && !d.isNan && !a.isNan && !(lf32 imm).isNan)
  | 5 =>
    -- the form is a's (DEDUCED, log 33)
    let y := pick (!neg) a (lf32 imm)
    put (if a.isNan then .nan else if isLog a then toLog23 y else y) false
  | 6 => put (lf32 imm) false
  | 7 => put (stepXlog t.bank (bitAt w 14) a) false
  | _ => none

/-- R301: runs a slot from step k; fuel bounds the steps. -/
def runProgram (t : Bound3) : Nat → Nat → List Num → List Ev → Num × List Ev
  | 0, _, rs, evs => (rs.headD .nan, evs)
  | fuel + 1, k, rs, evs =>
    match programStep t (t.steps k) rs with
    | none => (rs.headD .nan, evs)
    | some r => runProgram t fuel (k + 1) r.1 (if r.2 then evs ++ [.invalid] else evs)

/-- R302: an operand enters a program: a log with its tail factor and scale taken in, so that a TAIL is a FINITE one. -/
def toLog (x : Num) : Num := if isLog x then toLog23 x else x

/-! ## One element (R271, R290) -/

/-- R291: a value that is rounded once by R140 to R144, with what it has raised. -/
def onceRounded (op : Nat) (r : Num × List Ev) : Internal × List Ev := (.limited op 0 r.1, r.2)

/-- The result of an active element before its rounding, and what it raises. col is its column in D, rec its row's FINAL record. -/
def elementResult (t : Bound3) (x : VecDesc) (usesBlockB : Bool) (col : Nat) (rec : List Byte) (a b c : LaneVal) : Internal × List Ev :=
  let op := x.op
  let num (r : Num × Bool) (ops : List Num) : Internal × List Ev := (.num r.1, invalidIf r.2 ops)
  if op == 0x01 then num (addNum (a.num.linear t.bank) (b.num.linear t.bank)) [a.num, b.num]
  else if op == 0x02 then num (addNum (a.num.linear t.bank) (b.num.linear t.bank).negate) [a.num, b.num]
  else if op == 0x03 then num (mulHeld t.bank a.num b.num) [a.num, b.num]
  else if op == 0x04 then
    let p := mulNum (a.num.linear t.bank) (b.num.linear t.bank)
    let r := addNum p.1 (c.num.linear t.bank)
    num (r.1, p.2 || r.2) [a.num, b.num, c.num]
  else if op == 0x05 || op == 0x06 then (.num (pick (op == 0x05) a.num b.num), [])
  else if op == 0x07 then (.num (a.num.withSign false), [])
  else if op == 0x08 then (.num a.num.negate, [])
  else if op == 0x09 then (.num (scaleNum a.num (signedOf 10 x.aux0)), [])
  else if op == 0x0A then (.num (if c.code % 2 == 1 then a.num else b.num), [])
  else if isCompare op then (.code (bit (compareNum op a.num b.num)), [])
  else if isBitwise op then (.code (bitwise op (fmtWidth x.d.fmt) a.code b.code), [])
  else if 0x40 ≤ op && op ≤ 0x4B then special t.replaced (isL x.d.fmt) op x.aux0 a.num
  else if op == 0x4C then poscode t.bank t.replaced x.aux0 x.aux1 col a.num
  else if op == 0x51 then onceRounded op (exp2d t.bank a.num b.num)
  else if op == 0x52 then divideNum a.num b.num []
  else if op == 0x53 then
    let r := exp2d t.bank a.num b.num
    let q := divideNum r.1 c.num [a.num, b.num]
    (q.1, r.2 ++ q.2)
  else if op == 0x59 then onceRounded op (normApply t.bank rec a.num b.num c.num)
  else if isProgram op then
    let r1 := if usesBlockB then b.num else .zero false
    onceRounded op (runProgram t 64 0 ([toLog a.num, toLog r1] ++ List.replicate 6 (.zero false)) [])
  else (.num a.num, [])

/-! ## Reductions (R166, R276, R277, R312) -/

def SegState.start : SegState := ⟨0#32, 0#32, 0#32, 0#32, [], none, 0, 0, false, none, false, false, false⟩

def SumState.start : SumState := ⟨0, none, 0#32, 0#32, [], 0⟩

/-- R166, R277: the sum of a beat's values in linear form. -/
def beatSum (xs : List Num) : Num × Ev :=
  if xs.any Num.isNan then (.nan, .none)
  else
    let pos := xs.any fun x => x == .inf false
    let neg := xs.any fun x => x == .inf true
    if pos && neg then (.nan, .invalid)
    else if pos || neg then (.inf neg, .none)
    else
      match (xs.filterMap fun x => match x with | .lin _ m => some (floorLog2 m) | _ => none).max? with
      | none => (.zero false, .none)
      | some emax =>
        let count (x : Num) : Int := match x with
          | .lin n m => (let k := (m / pow2 (emax - 60)).floor; if n then -k else k)
          | _ => 0
        (numOfRat (((xs.map count).foldl (· + ·) 0 : Rat) * pow2 (emax - 60)), .none)

/-- R197: one pair step. -/
def pairStep (subn : Nat) (hi lo : Word32) (g : Num) : Word32 × Word32 × Ev :=
  let r := accumulate 1 rne subn 0 ⟨hi.toNat, lo.toNat, false⟩ g
  (BitVec.ofNat 32 r.1.hi, BitVec.ofNat 32 r.1.lo, r.2)

def pairNum (hi lo : Word32) : Num := AccValue.num ⟨hi.toNat, lo.toNat, false⟩ 1

/-- R277: the sum's beat ends. -/
def SegState.sumBeat (g : SegState) (subn : Nat) (c : Counts) : SegState × Counts :=
  let b := beatSum g.buf
  let p := pairStep subn g.hi g.lo b.1
  ({ g with hi := p.1, lo := p.2.1, buf := [] }, (c.add b.2).add p.2.2)

/-- R312: the statistics' beat ends. -/
def SegState.statsBeat (g : SegState) (c : Counts) : SegState × Counts :=
  let ds := g.buf.map fun x => (addNum x (g.x0.getD (.zero false)).negate).1
  let qs := ds.map fun d => (mulNum d d).1
  let p := pairStep 0 g.hi g.lo (beatSum ds).1
  let q := pairStep 0 g.s2hi g.s2lo (beatSum qs).1
  let special := g.hasNan || g.hasPos || g.hasNeg
  ({ g with hi := p.1, lo := p.2.1, s2hi := q.1, s2lo := q.2.1, buf := [] }, if special then c else (c.add p.2.2).add q.2.2)

/-- R277: an integer step, which saturates and stays. -/
def SegState.intStep (g : SegState) (v : Int) : SegState × List Ev :=
  if g.isat then (g, [])
  else
    let t := g.isum + v
    if t < -(2 ^ 31) then ({ g with isum := -(2 ^ 31), isat := true }, [.saturated])
    else if 2 ^ 31 ≤ t then ({ g with isum := 2 ^ 31 - 1, isat := true }, [.saturated])
    else ({ g with isum := t }, [])

/-- R277: RSUM sums as integers. -/
def VecDesc.sumsIntegers (x : VecDesc) : Bool :=
  x.d.fmt == fI32 && (if x.a.src == 3 then field x.a.base 8 7 == 2 else isInt x.a.fmt && !x.a.scaled)

/-- An active element i of a segment enters the reduction unit. -/
def SegState.enter (g : SegState) (bank : Option (List Nat)) (x : VecDesc) (i : Nat) (a : Num) : SegState × List Ev :=
  if x.op == 0x30 then
    if x.sumsIntegers then g.intStep ((a.rat bank).getD 0).floor else ({ g with buf := g.buf ++ [a.linear bank] }, [])
  else if x.op == 0x33 then
    let v := a.linear bank
    ({ g with
        buf := g.buf ++ [v]
        x0 := if g.n == 0 then some v else g.x0
        n := g.n + 1
        hasNan := g.hasNan || v.isNan
        hasPos := g.hasPos || v == .inf false
        hasNeg := g.hasNeg || v == .inf true }, [])
  else ({ g with best := extremum (x.op == 0x31) g.best [(a, i)] }, [])

/-! ## Statistics records (R312 to R315) -/

/-- What a FINAL record is formed from. -/
structure Stats where
  n      : Nat
  x0     : Num
  s1     : Num
  s2     : Num
  hasNan : Bool
  hasPos : Bool
  hasNeg : Bool

/-- R312, R313: the FINAL record, what it raises, and whether the variance was clamped. -/
def finalRecord (t : Bound3) (eps : Nat) (g : Stats) : List Byte × List Ev × Bool :=
  let nan := lfNan fLF32
  if g.hasNan then (leBytes 4 nan ++ leBytes 4 nan ++ leBytes 4 nan ++ leBytes 4 g.n, [], false)
  else if g.hasPos || g.hasNeg then
    let mean := if g.hasPos && g.hasNeg then nan else (encodeInf fLF32 g.hasNeg).1
    (leBytes 4 mean ++ leBytes 4 nan ++ leBytes 4 nan ++ leBytes 4 g.n, [.invalid], false)
  else
    let word (x : Num) : Nat × Ev := encodeNum none fLF32 0 rne 0 0 x
    let n : Num := numOfRat (g.n : Rat)
    let inv : Num := if g.n == 0 then .zero false else .lin false (1 / (g.n : Rat))
    let mean := word (addNum g.x0 (mulNum g.s1 inv).1).1
    let v := mulNum (addNum (mulNum n g.s2).1 (mulNum g.s1 g.s1).1.negate).1 (mulNum inv inv).1
    let raw := word v.1
    let clamp := (lf32 raw.1).lt (.zero false)
    let var := if g.n == 0 || clamp then (0, Ev.none) else raw
    let sum := word (addNum (lf32 var.1) (lf32 eps)).1
    let r := special t.replaced false 0x46 0 (lf32 sum.1)
    let rstd := encodeInternal t.bank fLF32 0 rne 0 0 r.1
    let var := if (lf32 var.1).isZero then 0 else var.1
    (leBytes 4 (if g.n == 0 then 0 else mean.1) ++ leBytes 4 var ++ leBytes 4 rstd.1 ++ leBytes 4 g.n,
      [if g.n == 0 then .none else mean.2, raw.2, sum.2, rstd.2] ++ r.2, clamp)

/-- R314: the PARTIAL record. -/
def partialRecord (n x0 s1hi s1lo s2hi s2lo flags : Nat) : List Byte :=
  leBytes 4 n ++ leBytes 4 x0 ++ leBytes 4 s1hi ++ leBytes 4 s1lo ++ leBytes 4 s2hi ++ leBytes 4 s2lo ++ leBytes 4 flags ++ zeros 4

def statFlags (nan pos neg : Bool) : Nat := bit nan + 2 * bit pos + 4 * bit neg

/-- R312: the record of a segment that has ended; one with infinities raises INVALID once, whichever record it is, unless a NaN decides it
(R148). -/
def SegState.record (t : Bound3) (x : VecDesc) (g : SegState) : List Byte × List Ev × Bool :=
  let x0 := g.x0.getD (.zero false)
  if x.aux0 % 4 == 0 then
    finalRecord t x.aux1 ⟨g.n, x0, pairNum g.hi g.lo, pairNum g.s2hi g.s2lo, g.hasNan, g.hasPos, g.hasNeg⟩
  else
    (partialRecord g.n (toLf32 x0) g.hi.toNat g.lo.toNat g.s2hi.toNat g.s2lo.toNat (statFlags g.hasNan g.hasPos g.hasNeg),
      if (g.hasPos || g.hasNeg) && !g.hasNan then [.invalid] else [], false)

/-- R315: merges B into A; kind 0 writes PARTIAL, 1 FINAL. -/
def statMerge (t : Bound3) (kind eps : Nat) (a b : List Byte) : List Byte × List Ev × Bool :=
  let pair (r : List Byte) (off : Nat) : Num := pairNum (BitVec.ofNat 32 (get32 r off)) (BitVec.ofNat 32 (get32 r (off + 4)))
  let out (n x0 : Nat) (s1 s2 : Word32 × Word32) (flags : Nat) (evs : List Ev) : List Byte × List Ev × Bool :=
    if kind == 0 then
      (partialRecord n x0 s1.1.toNat s1.2.toNat s2.1.toNat s2.2.toNat flags, evs, false)
    else
      let r := finalRecord t eps
        ⟨n, lf32 x0, pairNum s1.1 s1.2, pairNum s2.1 s2.2, bitAt flags 0, bitAt flags 1, bitAt flags 2⟩
      (r.1, evs ++ r.2.1, r.2.2)
  let words (r : List Byte) (off : Nat) : Word32 × Word32 := (BitVec.ofNat 32 (get32 r off), BitVec.ofNat 32 (get32 r (off + 4)))
  if get32 a 0 == 0 then out (get32 b 0) (get32 b 4) (words b 8) (words b 0x10) (get32 b 0x18 % 8) []
  else
    let n : Num := numOfRat (get32 b 0 : Rat)
    let d := (addNum (lf32 (get32 b 4)) (lf32 (get32 a 4)).negate).1
    let s1 := (addNum (addNum (pair a 8) (pair b 8)).1 (mulNum n d).1).1
    let s2 := (addNum (addNum (addNum (pair a 0x10) (pair b 0x10)).1 (mulNum (mulNum (.lin false 2) d).1 (pair b 8)).1).1
      (mulNum n (mulNum d d).1).1).1
    let p := pairStep 0 0#32 0#32 s1
    let q := pairStep 0 0#32 0#32 s2
    let flags := Nat.lor (get32 a 0x18 % 8) (get32 b 0x18 % 8)
    out ((get32 a 0 + get32 b 0) % 2 ^ 32) (get32 a 4) (p.1, p.2.1) (q.1, q.2.1) flags (if flags == 0 then [p.2.2, q.2.2] else [])

/-- R308: merges record B into A: the record, the correction, and what they raise; corrected: the correction is written. -/
def softMerge (bank : Option (List Nat)) (corrected : Bool) (a b : List Byte) : List Byte × Nat × List Ev :=
  let m := lf32 (get32 a 0)
  let mt := lf32 (get32 b 0)
  let w := (extremum true none [(m, get32 a 8), (mt, get32 b 8)]).getD (.nan, 0)
  let c := exp2d bank m w.1
  let ct := exp2d bank mt w.1
  let s := lf32 (get32 a 4)
  let st := lf32 (get32 b 4)
  let p := mulNum s c.1
  let q := mulNum st ct.1
  let r := addNum p.1 q.1
  let ops := [m, mt, s, st]
  let sum := encodeNum none fLF32 0 rne 0 0 (if ops.any Num.isNan then .nan else r.1)
  let corr := encodeNum none fLF32 0 rne 0 0 c.1
  (leBytes 4 (toLf32 w.1) ++ leBytes 4 sum.1 ++ leBytes 4 w.2 ++ zeros 4, corr.1,
    invalidIf (p.2 || q.2 || r.2) ops ++ c.2 ++ ct.2 ++ [sum.2] ++ if corrected then [corr.2] else [])

end Sys2Proof.Machine
end

