-- ==== Sys2Proof/Machine/VectorBeat.lean ====
section
/-! DEFINITION. One beat of a vector instruction: its streams, its results, its writes (R259 to R287). -/

namespace Sys2Proof.Machine

/-- R370: REQ_KIND of a vector engine. -/
def vectorReader : Reader := ⟨2, none, none⟩

/-- R262: bytes read, those that a saved run holds taken from it. -/
def withSaved (saved : List (Nat × List Byte)) (lo : Nat) (bs : List Byte) : List Byte :=
  if saved.isEmpty then bs
  else bs.mapIdx fun i b =>
    match saved.find? fun p => p.1 ≤ lo + i && lo + i < p.1 + p.2.length with
    | some p => p.2.getD (lo + i - p.1) b
    | none => b

/-! ## Reading streams (R267 to R270) -/

/-- R268: elements e to e + n - 1 in pieces that one read serves: a row's consecutive elements, or single ones under a stride; fuel
bounds the pieces. -/
def Stream.pieces (b : Stream) : Nat → Nat → Nat → List (Nat × Nat)
  | 0, _, _ => []
  | fuel + 1, e, n =>
    if n == 0 then []
    else
      let k := if 1 < b.stride then 1 else if b.rowLen == 0 then n else min n (b.rowLen - e % b.rowLen)
      (e, k) :: b.pieces fuel (e + k) (n - k)

/-- The bytes that a piece covers. -/
def Stream.pieceBytes (b : Stream) (p : Nat × Nat) : Nat × Nat :=
  let lo := b.bitOf p.1 / 8
  (lo, ceilDiv (b.bitOf (p.1 + p.2 - 1) + fmtWidth b.fmt) 8 - lo)

/-- Reads the codes of a piece. -/
def State.fetchPiece (s : State) (e : ClusterId) (saved : List (Nat × List Byte)) (b : Stream) (detail : Nat) (p : Nat × Nat) :
    Except Halt (List Nat) × State :=
  let r := b.pieceBytes p
  match s.fetchIn vectorReader (ownCluster e) detail r.1 r.2 with
  | (.error h, s) => (.error h, s)
  | (.ok bs, s) =>
    let v := leNat (withSaved saved r.1 bs)
    (.ok ((List.range p.2).map fun i => (v >>> (b.bitOf (p.1 + i) - 8 * r.1)) % 2 ^ fmtWidth b.fmt), s)

/-- Reads the scales of a piece. -/
def State.fetchScales (s : State) (e : ClusterId) (b : Stream) (detail : Nat) (p : Nat × Nat) : Except Halt (List Int) × State :=
  if !b.scaled then (.ok (List.replicate p.2 0), s)
  else
    let lo := b.scaleAt p.1
    match s.fetchIn vectorReader (ownCluster e) detail lo (b.scaleAt (p.1 + p.2 - 1) + 1 - lo) with
    | (.error h, s) => (.error h, s)
    | (.ok bs, s) => (.ok ((List.range p.2).map fun i => scaleOf (get8 bs (b.scaleAt (p.1 + i) - lo))), s)

/-- A piece's elements in the lanes. -/
def State.fetchLanes (s : State) (e : ClusterId) (saved : List (Nat × List Byte)) (b : Stream) (subn : Nat) (details : Nat × Nat)
    (p : Nat × Nat) : Except Halt (List LaneVal) × State :=
  match s.fetchPiece e saved b details.1 p with
  | (.error h, s) => (.error h, s)
  | (.ok codes, s) =>
    match s.fetchScales e b details.2 p with
    | (.error h, s) => (.error h, s)
    | (.ok scs, s) => (.ok (List.zipWith (laneOf b.fmt subn) codes scs), s)

/-- R269: elements e0 to e0 + n - 1 of a source. -/
def State.sourceLanes (s : State) (e : ClusterId) (op : VectorOp) (subn : Nat) (b : Stream) (details : Nat × Nat) (e0 n : Nat) :
    Except Halt (List LaneVal) × State :=
  if b.src == 0 then
    match gatherAll (fun p s => s.fetchLanes e op.saved b subn details p) (b.pieces n e0 n) s with
    | (.error h, s) => (.error h, s)
    | (.ok ls, s) => (.ok ls.flatten, s)
  else if b.src == 3 then
    let fmt := field b.base 8 7
    match region? (field b.base 6 5) (field b.base 4 0) fmt, s.cluster? e with
    | some g, some c =>
      (.ok ((List.range n).map fun i => accLane fmt subn (accRead s.freeCtr c.matrix.acc g ((e0 + i) / g.cols) ((e0 + i) % g.cols))),
        s.pastPlaces)
    | _, _ => (.ok (List.replicate n LaneVal.none), s)
  else
    let v := if b.src == 1 then (op.work.scalars.getD (b.base % 32) 0#64).toNat else b.base
    (.ok (List.replicate n (laneOf b.fmt subn (v % 2 ^ fmtWidth b.fmt) 0)), s)

/-- R270: which elements of a beat are active. -/
def State.activeLanes (s : State) (e : ClusterId) (x : VecDesc) (e0 n : Nat) : Except Halt (List Bool) × State :=
  if !x.maskEn then (.ok (List.replicate n true), s)
  else
    match s.fetchIn vectorReader (ownCluster e) 4 (x.mask + e0 / 8) (ceilDiv n 8) with
    | (.error h, s) => (.error h, s)
    | (.ok bs, s) => (.ok ((List.range n).map fun i => (elementOf bs fB1 i == 1) != x.maskInv), s)

/-! ## Results of a beat -/

/-- What a beat hands to its writes: elements, records (DETAIL, address, bytes), and the events and counts so far. -/
structure BeatOut where
  els    : List HeldElement
  recs   : List (Nat × Nat × List Byte)
  seg    : SegState
  counts : Counts
  maskedAt : Option Nat

/-- R283: an event of its own bit and counter. -/
def Counts.noteIndex (c : Counts) : Counts := orFlag { c with indexRange := countUp c.indexRange } 0x20
def Counts.noteClamp (c : Counts) : Counts := orFlag { c with negClamp := countUp c.negClamp } 0x40
def Counts.noteRow (c : Counts) : Counts := orFlag { c with maskedRow := countUp c.maskedRow } 0x80

/-- R275: the element index that an I32 lane names, where it is valid. -/
def indexOf (x : VecDesc) (b : LaneVal) : Option Nat :=
  let i := signedOf 32 b.code
  if 0 ≤ i && i < (x.aux0 : Int) then some i.toNat else none

/-- R310: the row is counted once when its divisor is +0. -/
def BeatOut.noteDivisor (o : BeatOut) (row : Nat) (divisor : Num) : BeatOut :=
  if divisor == .zero false && o.maskedAt != some row then { o with counts := o.counts.noteRow, maskedAt := some row } else o

/-- R275: GATHER: an element for each active lane; the values at valid indices are read. -/
def State.gatherLanes (s : State) (e : ClusterId) (x : VecDesc) (op : VectorOp) (idx : List (Nat × LaneVal)) :
    Except Halt (List (Nat × Option LaneVal)) × State :=
  gatherAll (fun p s =>
    match indexOf x p.2 with
    | none => (.ok (p.1, none), s)
    | some i =>
      match s.sourceLanes e op x.subn x.a (0, 2) i 1 with
      | (.error h, s) => (.error h, s)
      | (.ok ls, s) => (.ok (p.1, ls.head?), s)) idx s

/-- R267: A in GATHER may be a scalar or an immediate; then every valid index names it. -/
def gatherOut (o : BeatOut) (p : Nat × Option LaneVal) : BeatOut :=
  match p.2 with
  | none => { o with els := o.els ++ [⟨p.1, p.1, .num (.zero false), []⟩], counts := o.counts.noteIndex }
  | some l => { o with els := o.els ++ [⟨p.1, p.1, .num l.num, l.evs⟩] }

/-- R145: read events that count for a destination: an operand read as zero counts for an L or LF target alone. -/
def readEvents (x : VecDesc) (evs : List Ev) : List Ev := evs.filter fun v => v != .flushed || isL x.d.fmt || isLF x.d.fmt

/-- An element-wise operation on one active element. R221: a saturated accumulator word counts whatever becomes of its value. -/
def mapOut (t : Bound3) (x : VecDesc) (useB : Bool) (recs : List (Nat × List Byte)) (o : BeatOut)
    (p : Nat × LaneVal × LaneVal × LaneVal) : BeatOut :=
  let k := p.1
  let a := p.2.1
  let b := p.2.2.1
  let c := p.2.2.2
  let cell := x.d.cell k
  let rec_ := ((recs.find? fun r => r.1 == (x.a.cell k).1).map fun r => r.2).getD []
  let r := elementResult t x useB cell.2 rec_ a b c
  let evs := if isBitwise x.op then [] else r.2 ++ a.evs ++ b.evs ++ (if x.op == 0x0A then [] else c.evs)
  if x.op == 0x21 then
    match indexOf x b with
    | none => { o with counts := (o.counts.element (readEvents x a.evs)).noteIndex }
    | some i => { o with els := o.els ++ [⟨i, k, .num a.num, a.evs⟩] }
  else
    let o := { o with els := o.els ++ [⟨k, k, r.1, evs⟩] }
    if x.op == 0x52 then o.noteDivisor cell.1 b.num
    else if x.op == 0x53 then o.noteDivisor cell.1 c.num
    else o

/-- R276 to R279: an element reaches the reduction unit; its segment's beat, and its segment, may end with it. -/
def reduceOut (t : Bound3) (x : VecDesc) (o : BeatOut) (p : Nat × Bool × LaneVal) : BeatOut :=
  let k := p.1
  let sg := k / x.seg
  let i := k % x.seg
  let g := if i == 0 then SegState.start else o.seg
  let r := if p.2.1 then g.enter t.bank x i p.2.2.num else (g, [])
  let read := if p.2.1 then readEvents x p.2.2.evs else []
  let counts := (o.counts.element read).addAll r.2
  let last := i + 1 == x.seg || k + 1 == x.count
  let beatEnds := i % 256 == 255 || last
  let r2 := if !beatEnds then (r.1, counts)
    else if x.op == 0x30 && !x.sumsIntegers then r.1.sumBeat x.subn counts
    else if x.op == 0x33 then r.1.statsBeat counts
    else (r.1, counts)
  let o := { o with seg := r2.1, counts := r2.2 }
  if !last then o
  else
    let g := r2.1
    if x.op == 0x33 then
      let w := g.record t x
      let c := o.counts.element w.2.1
      { o with
        counts := if w.2.2 then c.noteClamp else c
        recs := o.recs ++ [(5, x.d.base + (if x.aux0 % 4 == 0 then 16 else 32) * sg, w.1)] }
    else
      let isMax := x.op == 0x31
      let y : Internal := if x.op == 0x30 then
          .num (if x.sumsIntegers then numOfRat (g.isum : Rat) else pairNum g.hi g.lo)
        else
          match g.best with
          | some b => .num b.1
          | none => if hasInf x.d.fmt then .num (limitOf isMax) else .code (encodeInf x.d.fmt isMax).1
      let idx := match g.best with
        | some b => b.2
        | none => 0xFFFFFFFF
      { o with
        els := o.els ++ [⟨sg, sg, y, []⟩]
        recs := if x.op != 0x30 && x.auxAddr != 0 then o.recs ++ [(9, x.auxAddr + 4 * sg, leBytes 4 idx)] else o.recs }

/-- R308, R315: merges the records of one active element. -/
def mergeOut (t : Bound3) (x : VecDesc) (o : BeatOut) (p : Nat × List Byte × List Byte) : BeatOut :=
  if x.op == 0x50 then
    let r := softMerge t.bank (x.auxAddr != 0) p.2.1 p.2.2
    { o with
      counts := o.counts.element r.2.2
      recs := o.recs ++ [(5, x.d.base + 16 * p.1, r.1)]
        ++ (if x.auxAddr == 0 then [] else [(9, x.auxAddr + 4 * p.1, leBytes 4 r.2.1)]) }
  else
    let r := statMerge t (x.aux0 % 4) x.aux1 p.2.1 p.2.2
    let c := o.counts.element r.2.1
    { o with
      counts := if r.2.2 then c.noteClamp else c
      recs := o.recs ++ [(5, x.d.base + (if x.aux0 % 4 == 0 then 32 else 16) * p.1, r.1)] }

/-- Reads n bytes of record k of a stream of records. -/
def State.fetchRecord (s : State) (e : ClusterId) (detail base size n k : Nat) : Except Halt (List Byte) × State :=
  s.fetchIn vectorReader (ownCluster e) detail (base + size * k) n

/-- R187, R301: the tables a running instruction is bound to. -/
def State.boundTables (s : State) (op : VectorOp) (x : VecDesc) : Bound3 :=
  let bank := s.antilogBank op.bank
  let fn := s.tables.function.contents op.fbank
  let pr := s.tables.programs.contents op.pbank
  let original := (match bank with
      | none => true
      | some _ => (List.range 256).all fun i => antilogEntry bank i == startupEntry i)
    && (match fn with
      | none => true
      | some l => (List.range 4096).all fun i => l.getD i 0 == (Config.functionTable i).toNat)
  { bank := bank
    replaced := if original then none else some ((bank.getD []).length :: bank.getD [] ++ (fn.getD []).take 4096)
    steps := fun k => match pr with
      | none => (Config.programTable (64 * (x.op % 32) + k)).toNat
      | some l => l.getD (64 * (x.op % 32) + k) 0
    upper := fun i => match fn with
      | none => (Config.functionTable (4096 + i)).toNat
      | some l => l.getD (4096 + i) 0 }

/-- The results of a beat of n elements from e0. -/
def State.beatResults (s : State) (e : ClusterId) (op : VectorOp) (x : VecDesc) (e0 n : Nat) : Except Halt BeatOut × State :=
  let t := s.boundTables op x
  let d := op.work.desc
  let useB := usesB x d
  let o : BeatOut := ⟨[], [], op.seg, op.counts, op.maskedAt⟩
  match s.activeLanes e x e0 n with
  | (.error h, s) => (.error h, s)
  | (.ok act, s) =>
    let ks := (List.range n).map (e0 + ·)
    if isMerge x.op then
      let size := recordBytes x.op
      match gatherAll (fun k s => s.fetchRecord e 0 x.a.base size size k) ks s with
      | (.error h, s) => (.error h, s)
      | (.ok as_, s) =>
        match gatherAll (fun k s => s.fetchRecord e 1 x.b.base size size k) ks s with
        | (.error h, s) => (.error h, s)
        | (.ok bs, s) =>
          let live := (List.zip act (List.zip ks (List.zip as_ bs))).filter fun p => p.1
          (.ok ((live.map fun p => p.2).foldl (mergeOut t x) o), s)
    else
      match (if useB then s.sourceLanes e op x.subn x.b (1, 3) e0 n else (.ok (List.replicate n LaneVal.none), s)) with
      | (.error h, s) => (.error h, s)
      | (.ok bs, s) =>
        if x.op == 0x20 then
          let live := (List.zip act (List.zip ks bs)).filter fun p => p.1
          match s.gatherLanes e x op (live.map fun p => p.2) with
          | (.error h, s) => (.error h, s)
          | (.ok ls, s) => (.ok (ls.foldl gatherOut o), s)
        else
          match s.sourceLanes e op x.subn x.a (0, 2) e0 n with
          | (.error h, s) => (.error h, s)
          | (.ok as_, s) =>
            if isReduction x.op then
              (.ok ((List.zip ks (List.zip act as_)).foldl (reduceOut t x) o), s)
            else
              match (if usesC x.op then s.sourceLanes e op x.subn x.c (6, 7) e0 n
                else (.ok (List.replicate n LaneVal.none), s)) with
              | (.error h, s) => (.error h, s)
              | (.ok cs, s) =>
                let rows := if x.op == 0x59 then
                    (((List.zip act ks).filter fun p => p.1).map fun p => (x.a.cell p.2).1).eraseDups
                  else []
                match gatherAll (fun r s => s.fetchRecord e 9 x.auxAddr 16 12 r) rows s with
                | (.error h, s) => (.error h, s)
                | (.ok recs, s) =>
                  let live := (List.zip act (List.zip ks (List.zip as_ (List.zip bs cs)))).filter fun p => p.1
                  (.ok ((live.map fun p => p.2).foldl (mapOut t x useB (List.zip rows recs)) o), s)

/-! ## Writing D (R138, R270, R287) -/

/-- A byte to write: address, the bits written, their values. -/
structure BitWrite where
  addr : Nat
  mask : Nat
  val  : Nat

/-- The bytes of w bits at a bit address. -/
def bitWrites (bitAddr w code : Nat) : List BitWrite :=
  let lo := bitAddr % 8
  (List.range (ceilDiv (lo + w) 8)).map fun i =>
    ⟨bitAddr / 8 + i, (((2 ^ w - 1) * 2 ^ lo) >>> (8 * i)) % 256, ((code * 2 ^ lo) >>> (8 * i)) % 256⟩

/-- Runs of consecutive bytes, newest run and newest byte first, with one more byte. -/
def addToRuns (runs : List (Nat × List (Nat × Nat))) (b : BitWrite) : List (Nat × List (Nat × Nat)) :=
  match runs with
  | [] => [(b.addr, [(b.mask, b.val)])]
  | (a, bs) :: rest =>
    if b.addr == a + bs.length then (a, (b.mask, b.val) :: bs) :: rest
    else if b.addr + 1 == a + bs.length then
      match bs with
      | [] => (b.addr, [(b.mask, b.val)]) :: runs
      | (m, v) :: more => (a, (Nat.lor m b.mask, Nat.lor (Nat.land v (255 - b.mask)) b.val) :: more) :: rest
    else (b.addr, [(b.mask, b.val)]) :: runs

/-- Writes a run; bits outside its masks keep their values. -/
def State.storeRun (s : State) (run : Nat × List (Nat × Nat)) : State :=
  let ms := run.2.reverse
  let old := (s.peek run.1 ms.length).getD (zeros ms.length)
  let bs := ms.mapIdx fun i p => BitVec.ofNat 8 (Nat.lor (Nat.land (get8 old i) (255 - p.1)) p.2)
  s.storeAt vectorReader run.1 bs

/-- R287: the last element of an element's scale block in D, which has total elements. -/
def Stream.blockEnd (b : Stream) (total j : Nat) : Nat :=
  let c := (b.cell j).2
  let width := if b.rowLen == 0 then total else b.rowLen
  min (j - c + min (c / 32 * 32 + 31) (width - 1)) (total - 1)

/-- A row and block number. -/
def Stream.blockKey (b : Stream) (j : Nat) : Nat × Nat := ((b.cell j).1, (b.cell j).2 / 32)

/-- R138: the scale of a block: its least element j, and its elements. -/
def State.blockScale (s : State) (e : ClusterId) (x : VecDesc) (els : List HeldElement) (j : Nat) :
    Except Halt Int × State :=
  if x.scaleMode == 0 || x.scaleMode == 1 then
    let b := if x.scaleMode == 0 then x.d else x.a
    match s.fetchIn vectorReader (ownCluster e) (if x.scaleMode == 0 then 8 else 2) (b.scaleAt j) 1 with
    | (.error h, s) => (.error h, s)
    | (.ok v, s) => (.ok (scaleOf (leNat v)), s)
  else
    let xs := (els.filter fun h => x.d.blockKey h.j == x.d.blockKey j).map fun h => h.x.toNum
    (.ok (chooseScale x.scaleMode x.d.fmt xs), s)

/-- R182, R280: the draw of an element or result index. -/
def vectorDraw (e : ClusterId) (op : VectorOp) (k : Nat) : Nat :=
  let d := op.work.desc
  let t : Streams := ⟨get64 d 0x70, get32 d 0x78 + get16 d 0x7C * 2 ^ 32, field (get32 d 0x7C) 20 19, descAddr d 0x80, op.table⟩
  t.draw (streamId 1 e.cdie e.cluster (k % 256) 0) (k % 256) 0 (k / 256)

/-- R145, R156: what an element has raised in all, with its rounding. -/
def elementEvents (x : VecDesc) (h : HeldElement) (ev : Ev) : List Ev :=
  let evs := readEvents x h.evs
  if x.op == 0 then
    if evs.contains .saturated then [.saturated] else if ev != .none then [ev] else evs
  else evs ++ [ev]

/-- R281: the sum of a summary takes a beat in. -/
def SumState.flush (m : SumState) (bank : Option (List Nat)) (subn : Nat) : SumState :=
  if m.buf.isEmpty then m
  else
    let p := pairStep subn m.hi m.lo (beatSum (m.buf.map (Num.linear bank))).1
    { m with hi := p.1, lo := p.2.1, buf := [] }

/-- R281: a value written to D. -/
def SumState.note (m : SumState) (bank : Option (List Nat)) (x : VecDesc) (k code : Nat) (sc : Int) : SumState :=
  let v := heldForm x.d.fmt sc (decodeNum x.d.fmt code sc 0).1
  if x.summary == 2 then { m with count := m.count + (if x.d.fmt == fB1 then code % 2 else bit (!v.isZero)) }
  else if x.summary == 3 || x.summary == 4 then { m with best := extremum (x.summary == 3) m.best [(v, k)] }
  else if x.summary == 5 then
    let m := if m.beat == k / 256 then m else m.flush bank x.subn
    { m with beat := k / 256, buf := m.buf ++ [v] }
  else m

/-- R281: the scalar. -/
def SumState.scalar (m : SumState) (bank : Option (List Nat)) (x : VecDesc) (c : Counts) : Word64 :=
  BitVec.ofNat 64 (match x.summary with
    | 1 => c.aflags.toNat
    | 2 => m.count
    | 5 =>
      let m := m.flush bank x.subn
      m.hi.toNat + m.lo.toNat * 2 ^ 32
    | 0 => 0
    | k =>
      let w := m.best.getD (limitOf (k == 3), 0xFFFFFFFF)
      (encodeNum bank fLF32 0 rne 0 0 w.1).1 + w.2 * 2 ^ 32)

/-- R154: an I8 element converted to L5 that lies above the largest finite value raises OVERFLOW even where it rounds to that value. -/
def beyondL5 (x : VecDesc) (sc : Int) (y : Internal) : Bool :=
  (x.op == 0x00 || x.op == 0x20 || x.op == 0x21) && x.a.src != 3 && x.a.fmt == fI8 && x.d.fmt == fL5
    && (match y.toNum.mag with | some m => (maxF fL5).lt (m.scale (pow2 (-sc))) | none => false)

/-- Rounds and writes an element. -/
def emitElement (bank : Option (List Nat)) (e : ClusterId) (op : VectorOp) (x : VecDesc) (scales : List ((Nat × Nat) × Int))
    (acc : List (Nat × List (Nat × Nat)) × Counts × SumState) (h : HeldElement) : List (Nat × List (Nat × Nat)) × Counts × SumState :=
  let sc := ((scales.find? fun p => p.1 == x.d.blockKey h.j).map fun p => p.2).getD 0
  let u := if x.rnd == stoch then vectorDraw e op h.di else 0
  let r := encodeInternal bank x.d.fmt sc x.rnd x.subn u h.x
  ((bitWrites (x.d.bitOf h.j) (fmtWidth x.d.fmt) r.1).foldl addToRuns acc.1,
    acc.2.1.element (elementEvents x h (if beyondL5 x sc h.x then .overflow else r.2)), acc.2.2.note bank x h.di r.1 sc)

/-- R276: how many elements of D are settled once e1 elements have been read. -/
def VecDesc.settled (x : VecDesc) (e1 : Nat) : Nat :=
  if !isReduction x.op then e1 else if x.count ≤ e1 then x.outputs else e1 / x.seg

/-- R286, R287: the pages that the beat's writes reach. -/
def State.beatChecks (s : State) (e : ClusterId) (x : VecDesc) (d0 d1 : Nat) (now : List HeldElement) (keys : List Nat)
    (recs : List (Nat × Nat × List Byte)) : Except Halt Unit :=
  let own := ownCluster e
  let stream := if x.op == 0x21 then now.map fun h => (h.j, 1)
    else if isMerge x.op || x.op == 0x33 then []
    else (now.filter fun h => h.j < d0).map (fun h => (h.j, 1)) ++ x.d.pieces (d1 - d0) d0 (d1 - d0)
  checkAll ((stream.map fun p => (let r := x.d.pieceBytes p; s.checkIn own .write 5 r.1 r.2))
    ++ (if x.scaleMode == 0 then [] else keys.map fun j => s.checkIn own .write 8 (x.d.scaleAt j) 1)
    ++ recs.map fun r => s.checkIn own .write r.1 r.2.1 r.2.2.length)

/-- R259 to R287: the next beat of an instruction. -/
def State.vecBeat (s : State) (e : ClusterId) (op : VectorOp) (x : VecDesc) : Except Halt VectorOp × State :=
  let e0 := 256 * op.nextBeat
  let n := min 256 (x.count - e0)
  match s.beatResults e op x e0 n with
  | (.error h, s) => (.error h, s)
  | (.ok o, s) =>
    let d0 := x.settled e0
    let d1 := x.settled (e0 + n)
    let all := op.heldBlock ++ o.els
    let now := if x.d.scaled then all.filter fun h => x.d.blockEnd x.outputs h.j < d1 else all
    let later := if x.d.scaled then all.filter fun h => !(x.d.blockEnd x.outputs h.j < d1) else []
    -- the least active element of each block written
    let keys := if x.d.scaled then
        (now.map fun h => h.j).filter fun j => !now.any fun h => h.j < j && x.d.blockKey h.j == x.d.blockKey j
      else []
    match gatherAll (fun j s => s.blockScale e x now j) keys s with
    | (.error h, s) => (.error h, s)
    | (.ok scs, s) =>
      match s.beatChecks e x d0 d1 now keys o.recs with
      | .error h => (.error h, s)
      | .ok _ =>
        let scales := List.zip (keys.map x.d.blockKey) scs
        let r := now.foldl (emitElement (s.antilogBank op.bank) e op x scales) ([], o.counts, op.sum)
        let s := r.1.reverse.foldl State.storeRun s
        let s := if x.scaleMode == 0 then s
          else (List.zip keys scs).foldl (fun s p => s.storeAt vectorReader (x.d.scaleAt p.1) (leBytes 1 (unsignedOf 8 p.2))) s
        let s := o.recs.foldl (fun s w => s.storeAt vectorReader w.2.1 w.2.2) s
        (.ok { op with
          nextBeat := op.nextBeat + 1
          seg := o.seg
          counts := r.2.1
          sum := r.2.2
          heldBlock := later
          maskedAt := o.maskedAt }, s)

end Sys2Proof.Machine
end

