-- ==== Sys2Proof/Machine/Groups.lean ====
section
/-! DEFINITION. Collective groups, bucket layouts and the summation of one burst (R397 to R402, R406 to R412). -/

namespace Sys2Proof.Machine

/-! ## Rank maps (R397 to R399) -/

/-- Entry i of a rank map. -/
def mapEntry (m : List Byte) (i : Nat) : Nat := get32 m (16 + 4 * i)

/-- R397: a map of n members that breaks its rules. -/
def rankMapBad (m : List Byte) (n : Nat) : Bool :=
  let es := (List.range n).map (mapEntry m)
  let ranks := es.map fun e => field e 11 0
  let nodes := es.map fun e => field e 23 12
  let ms := get32 m 4
  (ms != 0 && (ms < 100 || 600000 < ms)) || get64 m 8 != 0 || es.any (fun e => field e 31 24 != 0)
    || !((List.zip ranks (ranks.drop 1)).all fun p => p.1 < p.2)
    || !((List.zip nodes (nodes.drop 1)).all fun p => p.1 ≤ p.2)
    || nodes.any fun k => 16 < (nodes.filter fun j => j == k).length

/-- R397 to R399: JOIN_GROUP; which free number it returns is a free choice (log 27). -/
def joinGroupBody (carrel : Nat) (pl : List Byte) (s : State) : Answer × State :=
  let rank := get16 pl 8
  let size := get16 pl 10
  if size == 0 || 4096 < size then (ansField 10, s)
  else
    match s.commandRead (get64 pl 0) (16 + 4 * size) with
    | (.error a, s) => (a, s)
    | (.ok m, s) =>
      let members := (List.range size).map fun i => (field (mapEntry m i) 11 0, field (mapEntry m i) 23 12)
      let me := members.findIdx? fun x => x.1 == rank
      match firstBad [(0, rankMapBad m size), (8, rank != s.ww.fabric.rank || me.isNone), (10, get16 m 0 != size)] with
      | some f => (ansField f, s)
      | none =>
        let total := (s.coll.groups.map fun g => g.members.length).foldl (· + ·) 0
        if 8192 < total + size || 16 ≤ s.coll.groups.length then (ans stNoResource, s)
        else
          let f := s.fresh
          let used := s.coll.groups.map fun g => g.num
          match ((List.range 16).map fun i => (f.1.toNat + i) % 16).find? fun k => !used.contains k with
          | none => (ans stNoResource, s)
          | some n =>
            let g : Group := ⟨n, carrel, m, members, me.getD 0, get32 m 4, none, 0, 0, [], false, []⟩
            (ansOk (leBytes 2 n), { f.2 with coll := { f.2.coll with groups := f.2.coll.groups ++ [g] } })

def execJoinGroup (carrel : Nat) (s : State) : Host.Outcome State Fault Refusal := s.after <|
  takeRing carrel 0x0050 (joinGroupBody carrel) s

/-- R398: GROUP_CRC. -/
def Group.crc (g : Group) : Word32 := BitVec.ofNat 32 (crc32 g.map)

def Group.size (g : Group) : Nat := g.members.length

/-- R476: W. -/
def Group.window (g : Group) : Nat := max 2048 (2097152 / g.size / 64 * 64)

/-- The rank of a member. -/
def Group.rankOf (g : Group) (i : Nat) : Nat := (g.members.getD i (0, 0)).1

def State.modGroup (s : State) (num : Nat) (f : Group → Group) : State :=
  { s with coll := { s.coll with groups := updIf (fun g => g.num == num) f s.coll.groups } }

/-- R402: a REDUCE of a group, by its bytes. -/
def reducesGroup (g : Nat) (d : List Byte) : Bool := descKind d == 6 && get16 d 4 == g

/-- R399, R400: a REDUCE of the group is queued, waiting or running. -/
def State.groupBusy (s : State) (g : Nat) : Bool :=
  s.queues.any (fun q => q.items.any fun it => match it.work, it.state with
    | .desc d, .waiting => reducesGroup g d
    | _, _ => false)
  || s.consorts.any fun c => c.queue.any (fun w => reducesGroup g w.desc) || c.active.any (fun op => op.group == g)
      || c.running.any fun op => op.group == g

/-- R399: LEAVE_GROUP. -/
def leaveGroupBody (pl : List Byte) (s : State) : Answer × State :=
  let g := get16 pl 0
  if (s.group? g).isNone then (ansField 0, s)
  else if s.groupBusy g then (ans stBusy, s)
  else
    (ansOk [], { s with coll := { s.coll with
      groups := s.coll.groups.filter fun x => x.num != g
      refused := s.coll.refused.filter fun r => r.1 != g
      portBursts := s.coll.portBursts.filter fun b => b.group != g
      own := s.coll.own.filter fun b => b.group != g
      gathers := s.coll.gathers.filter fun x => x.group != g } })

def execLeaveGroup (carrel : Nat) (s : State) : Host.Outcome State Fault Refusal := s.after <| takeRing carrel 0x0052 leaveGroupBody s

/-! ## Layouts (R400, R401) -/

/-- The fields of a layer record. -/
structure LayerLayout where
  layer    : Nat
  gradFmt  : Nat
  resFmt   : Nat
  xdie     : Nat
  scale    : Int
  elements : Nat
  perBucket : Nat
  grad     : Nat
  err      : Nat
  sum      : Nat
  cbuf     : Nat

def LayerLayout.of (r : List Byte) : LayerLayout :=
  let w := get32 r 0
  { layer := get16 r 0
    gradFmt := [fLF32, fLF16, fL16].getD (field w 17 16) fLF32
    resFmt := if bitAt w 18 then fL16 else fLF32
    xdie := field w 20 19
    scale := signedOf 8 (get8 r 4)
    elements := get64 r 8
    perBucket := get16 r 0x10
    grad := descAddr r 0x18
    err := descAddr r 0x20
    sum := descAddr r 0x28
    cbuf := descAddr r 0x30 }

def LayerLayout.blocks (l : LayerLayout) : Nat := ceilDiv l.elements 256
/-- R401: B of the layer. -/
def LayerLayout.buckets (l : LayerLayout) : Nat := ceilDiv l.blocks l.perBucket
/-- R407: bytes between buckets in CBUF. -/
def LayerLayout.slot (l : LayerLayout) : Nat := ceilDiv (32 + 76 * l.perBucket) 64 * 64
def LayerLayout.gradBytes (l : LayerLayout) : Nat := fmtWidth l.gradFmt / 8
def LayerLayout.resBytes (l : LayerLayout) : Nat := fmtWidth l.resFmt / 8
/-- Blocks of bucket m. -/
def LayerLayout.blocksIn (l : LayerLayout) (m : Nat) : Nat := min l.perBucket (l.blocks - m * l.perBucket)
/-- Elements of bucket m. -/
def LayerLayout.elementsIn (l : LayerLayout) (m : Nat) : Nat := min (256 * l.perBucket) (l.elements - m * 256 * l.perBucket)
/-- Bursts of bucket m that hold elements (R409). -/
def LayerLayout.burstsIn (l : LayerLayout) (m : Nat) : Nat := ceilDiv (l.elementsIn m) 16

/-- The device's own memory of the tiers that ok allows, by an access. -/
def State.spanIn (s : State) (ok : Space → Bool) (acc : Acc) (va n : Nat) : Bool :=
  match s.translateSpan .device acc va n with
  | .error _ => false
  | .ok ts => ts.all fun p => (match p.1 with | .mem sp _ => ok sp | _ => false)

/-- R400: the first bad field of a layer record. -/
def layoutBad (s : State) (r : List Byte) : Option Nat :=
  let l := LayerLayout.of r
  let w := get32 r 0
  let near (sp : Space) : Bool := sp == .near
  let dep (sp : Space) : Bool := sp == .dep
  let sized := l.elements != 0 && l.elements ≤ 2 ^ 40 && l.perBucket != 0 && l.perBucket ≤ 32768
  leastBad
    ([(0x00, field w 17 16 == 3 || s.fuses.part.x ≤ l.xdie || field w 31 21 != 0), (0x04, field (get32 r 4) 31 8 != 0),
      (0x08, l.elements == 0 || 2 ^ 40 < l.elements), (0x10, l.perBucket == 0 || 32768 < l.perBucket || get16 r 0x12 != 0),
      (0x14, get32 r 0x14 != 0), gapBad r 0x38 0x40, wideBad r 0x18, wideBad r 0x20, wideBad r 0x28, wideBad r 0x30]
     ++ if !sized then [(0x28, l.sum % 64 != 0), (0x30, l.cbuf % 64 != 0)]
        else
          [(0x18, !s.spanIn (fun _ => true) .read l.grad (l.elements * l.gradBytes)),
           (0x20, !(s.spanIn near .read l.err (4 * l.elements) && s.spanIn near .write l.err (4 * l.elements))),
           (0x28, l.sum % 64 != 0 || !(s.spanIn near .write l.sum (l.elements * l.resBytes)
              || s.spanIn dep .write l.sum (l.elements * l.resBytes))),
           (0x30, l.cbuf % 64 != 0 || !(s.spanIn near .read l.cbuf (l.buckets * l.slot)
              && s.spanIn near .write l.cbuf (l.buckets * l.slot)))])

/-- R447: an update of a layer is pending or running. -/
def State.updating (s : State) (layer : Nat) : Bool := s.update.ops.any fun u => u.layer == layer

/-- R400: SET_BUCKETS. -/
def setBucketsBody (pl : List Byte) (s : State) : Answer × State :=
  let n := get32 pl 8
  if n == 0 || 16384 < n then (ansField 8, s)
  else
    match s.group? (get16 pl 12) with
    | none => (ansField 12, s)
    | some g =>
      let old := g.layout.getD []
      if s.groupBusy g.num then (ans stBadState, s)
      else if old.any fun r => s.updating (get16 r 0) then (ans stBusy, s)
      else
        match s.commandRead (get64 pl 0) (64 * n) with
        | (.error a, s) => (a, s)
        | (.ok bytes, s) =>
          let rs := chunks 64 n bytes
          match (rs.mapIdx fun i r => (layoutBad s r).map fun f => 64 * i + f).findSome? id with
          | some f => (ansField (f % 65536), s)
          | none =>
            (ansOk [], ({ s with coll := { s.coll with own := s.coll.own.filter fun b => b.group != g.num } }).modGroup g.num fun g =>
              { g with layout := some rs, nextIndex := 0, late := [] })

def execSetBuckets (carrel : Nat) (s : State) : Host.Outcome State Fault Refusal := s.after <| takeRing carrel 0x0051 setBucketsBody s

/-- R401: LAYOUT_CRC. -/
def layoutCrc (rs : List (List Byte)) : Nat := crc32 (rs.flatMap fun r => overlay r 0x18 (zeros 32))

/-- R401: layer position and bucket in the layer of a global bucket index. -/
def locate : List (List Byte) → Nat → Nat → Option (Nat × Nat)
  | [], _, _ => none
  | r :: rs, j, b =>
    let n := (LayerLayout.of r).buckets
    if b < n then some (j, b) else locate rs (j + 1) (b - n)

/-- R401: the global index of a layer's first bucket. -/
def firstBucket (rs : List (List Byte)) (j : Nat) : Nat :=
  ((rs.take j).map fun r => (LayerLayout.of r).buckets).foldl (· + ·) 0

def Group.layer (g : Group) (j : Nat) : LayerLayout := LayerLayout.of ((g.layout.getD []).getD j [])

/-- Layer and place of a global bucket of a group. -/
def Group.find (g : Group) (b : Nat) : Option (Nat × LayerLayout × Nat) :=
  (locate (g.layout.getD []) 0 b).map fun p => (p.1, g.layer p.1, p.2)

/-! ## The sum of one burst (R410) -/

/-- An LF32 pair. -/
abbrev Pair := Word32 × Word32

/-- R410: the exact sum of two pairs, written back as a pair. -/
def pairAdd (a b : Pair) : Pair :=
  let r := pairStep 0 a.1 a.2 (pairNum b.1 b.2)
  (r.1, r.2.1)

/-- R410: one round of the tree of a node. -/
def pairRound : List Pair → List Pair
  | a :: b :: rest => pairAdd a b :: pairRound rest
  | l => l

/-- R410: tree; a node has at most 16 members. -/
def pairTree (l : List Pair) : Option Pair := (pairRound (pairRound (pairRound (pairRound l)))).head?

/-- The member indices of a group, node by node. -/
def Group.nodes (g : Group) : List (List Nat) :=
  let ns := (g.members.map fun m => m.2).eraseDups
  ns.map fun k => (List.range g.size).filter fun i => (g.members.getD i (0, 0)).2 == k

/-- R410: node by node. -/
def sumNodes : Option Pair → List (Option Pair) → Option Pair
  | r, [] => r
  | none, p :: ps => sumNodes p ps
  | some r, none :: ps => sumNodes (some r) ps
  | some r, some p :: ps => sumNodes (some (pairAdd r p)) ps

/-- Member i's contribution to element e of a burst. -/
def Contribution.pair (c : Contribution) (e : Nat) : Pair :=
  (c.alpha ||| (if c.signs.getLsbD e then 0x80000000#32 else 0#32), 0#32)

/-- R410: the result of element e: its code, what its rounding raised, and the lowest source of a NaN. -/
def burstElement (g : Group) (l : LayerLayout) (got : List Contribution) (e : Nat) : Nat × Ev × Option Nat :=
  let nan := (List.range g.size).find? fun i => got.any fun c => c.source == i && c.nans.getLsbD e
  match nan with
  | some i => ((encodeNan l.resFmt).1, .none, some i)
  | none =>
    let leaf (i : Nat) : Option Pair := (got.find? fun c => c.source == i).map fun c => c.pair e
    let sum := (sumNodes none (g.nodes.map fun n => pairTree (n.filterMap leaf))).getD (0#32, 0#32)
    let y := encodeNum none l.resFmt 0 rne 0 0 (scaleNum (pairNum sum.1 sum.2) l.scale)
    (y.1, y.2, none)

/-! ## Staging (R412) -/

/-- Two neighbours of a level, complete or not: the single contributions that must wait, and the next level. -/
def pairUp : List (List Nat × Bool) → List Nat × List (List Nat × Bool)
  | a :: b :: rest =>
    let r := pairUp rest
    let both := a.2 && b.2
    let lone (x : List Nat × Bool) : List Nat := if !both && x.2 && x.1.length == 1 then x.1 else []
    (lone a ++ lone b ++ r.1, (a.1 ++ b.1, both) :: r.2)
  | l => ([], l)

/-- Contributions of a node that hold slots, and what remains of it. -/
def nodeHeld : Nat → List (List Nat × Bool) → List Nat × List (List Nat × Bool)
  | 0, l => ([], l)
  | n + 1, l =>
    let r := pairUp l
    let q := nodeHeld n r.2
    (r.1 ++ q.1, q.2)

/-- R412: contributions of a burst that hold slots: before marks that every earlier node is summed. -/
def heldNodes (got : List Nat) : Bool → List (List Nat) → List Nat
  | _, [] => []
  | before, n :: ns =>
    let r := nodeHeld 4 (n.map fun i => ([i], got.contains i))
    let whole := r.2.all fun x => x.2
    let lone := if n.length == 1 && whole && !before then n else []
    r.1 ++ lone ++ heldNodes got (before && whole) ns

def Group.heldOf (g : Group) (got : List Contribution) : List Nat := heldNodes (got.map fun c => c.source) true g.nodes

end Sys2Proof.Machine
end

