-- ==== Sys2Proof/Machine/Collective.lean ====
section
/-! DEFINITION. Reductions: REDUCE descriptors, one-bit compression and sending (R402 to R408), summation at the owner (R412 to R423),
statistics (R426), the group timeout (R424) and status (R427). -/

namespace Sys2Proof.Machine

/-- R370: REQ_KIND of a Consort engine, on its X-die, and of an accumulate port, beside its memory. -/
def consortReader (x : Nat) : Reader := ⟨6, none, some (.x, x)⟩
def portReader : Reader := ⟨7, none, none⟩

/-- R377, R421: reads n bytes of the device's own memory; memory of the host or of a peer is a KIND fault (DEDUCED, log 26). -/
def State.fetchOwn (s : State) (r : Reader) (va n : Nat) : Except Halt (List Byte) × State :=
  match s.vread r .device .read va n with
  | (.bytes b, s) => (.ok b, s)
  | (.stop c a, s) => (.error (.fault .read c a), s)
  | (.dead k, s) => (.error (.dead k), s)
  | (.away _, s) => (.error (.fault .read 4 va), s)

/-- R421: whether n bytes of the device's own memory can be accessed. -/
def State.checkOwn (s : State) (acc : Acc) (va n : Nat) : Except Halt Unit :=
  match s.translateSpan .device acc va n with
  | .error (c, a) => .error (.fault acc c a)
  | .ok ts => if (awayOf ts).isSome then .error (.fault acc 4 va) else .ok ()

/-! ## The descriptor (R402) -/

structure ReduceDesc where
  stats   : Bool
  group   : Nat
  index   : Nat
  step    : Word32
  trigger : Nat
  count   : Nat
  src     : Nat
  dst     : Nat
  stage   : Nat
  eps     : Nat
  status  : Nat

def ReduceDesc.of (d : List Byte) : ReduceDesc :=
  { stats := field (get8 d 0) 5 4 == 1
    group := get16 d 4
    index := get32 d 8
    step := BitVec.ofNat 32 (get32 d 0xC)
    trigger := descAddr d 0x10
    count := get64 d 0x18
    src := descAddr d 0x20
    dst := descAddr d 0x28
    stage := descAddr d 0x30
    eps := get32 d 0x38
    status := descAddr d 0x88 }

/-- R231, R402: the first bad field of a REDUCE descriptor. -/
def reduceBad (p : Part) (d : List Byte) : Option Nat :=
  let stats := field (get8 d 0) 5 4 == 1
  let xd := field (get8 d 0) 7 6
  leastBad
    ([(0, 1 < field (get8 d 0) 5 4 || field (get32 d 0) 31 8 != 0 || (if stats then p.x ≤ xd else xd != 0)),
      (4, get16 d 6 != 0), wideBad d 0x10, gapBad d 0x3C 0x88, wideBad d 0x88]
     ++ (if stats then [(8, get32 d 8 == 0 || 65536 < get32 d 8), wideBad d 0x20, wideBad d 0x28, wideBad d 0x30] else [])
     ++ tailBad d 0xC0)

/-! ## Finding operations -/

def State.consort? (s : State) (x : Nat) : Option ConsortEngine := s.consorts[x]?

def State.modConsort (s : State) (x : Nat) (f : ConsortEngine → ConsortEngine) : State :=
  { s with consorts := s.consorts.modify x f }

def State.setReduce (s : State) (x : Nat) (op : Option ReduceOp) : State := s.modConsort x fun c => { c with active := op }

/-- The operations of an engine that have passed their trigger: those that wait for results, and the one it compresses (R421). -/
def ConsortEngine.begun (c : ConsortEngine) : List ReduceOp := c.running ++ c.active.toList.filter fun op => op.begun

/-- Changes the operation of a uid. -/
def State.modRunning (s : State) (uid : Nat) (f : ReduceOp → ReduceOp) : State :=
  let g (op : ReduceOp) : ReduceOp := if op.work.uid == uid then f op else op
  { s with consorts := s.consorts.map fun c => { c with running := c.running.map g, active := c.active.map g } }

/-- The operations of the part that have passed their trigger, oldest first. -/
def State.reduces (s : State) : List ReduceOp :=
  (s.consorts.flatMap ConsortEngine.begun).mergeSort fun a b => a.work.uid ≤ b.work.uid

/-- R421: an engine's compression is suspended, and the operation of a uid is of that engine. -/
def State.compressionStopped (s : State) (uid : Nat) : Bool :=
  s.consorts.any fun c => c.active.any (fun a => a.begun && a.suspended.isSome) && c.begun.any fun op => op.work.uid == uid

/-- The X-die of an operation's engine. -/
def State.consortOf (s : State) (uid : Nat) : Nat :=
  (s.consorts.findIdx? fun c => c.begun.any fun op => op.work.uid == uid).getD 0

def State.groupOfCrc (s : State) (crc : Word32) : Option Group := s.coll.groups.find? fun g => g.crc == crc

def Group.rank? (g : Group) (rank : Nat) : Option Nat := g.members.findIdx? fun m => m.1 == rank

/-- The buckets of a layout. -/
def Group.total (g : Group) : Nat := firstBucket (g.layout.getD []) (g.layout.getD []).length

/-! ## One-bit compression (R405 to R407) -/

/-- R405: v of one element. -/
def carryIn (bank : Option (List Nat)) (fmt code err : Nat) : Nat :=
  let g := ((decodeNum fmt code 0 0).1).linear bank
  (encodeNum none fLF32 0 rne 0 0 (addNum g (lf32 err)).1).1

/-- R405: α of a block. -/
def blockScale32 (vs : List Nat) : Nat :=
  let f := vs.filterMap fun v => (lf32 v).rat none
  if f.isEmpty then 0
  else toLf32 (numOfRat ((f.map fun q => if q < 0 then -q else q).foldl (· + ·) 0 / (f.length : Rat)))

def finite32 (v : Nat) : Bool := field v 30 23 != 255

/-- R405: the new error of one element. -/
def carryOut (alpha v : Nat) : Nat :=
  if finite32 v then toLf32 (addNum (lf32 v) ((lf32 alpha).withSign (!bitAt v 31))).1 else lfNan fLF32

/-- What a block compresses to: the 40 bytes of R406, the NaN bits, the new errors, the NaN count. -/
structure Packed where
  bytes : List Byte
  nans  : List Byte
  errs  : List Nat
  count : Nat

def packBlock (vs : List Nat) : Packed :=
  let alpha := blockScale32 vs
  let bad := vs.filter fun v => !finite32 v
  { bytes := padTo 32 (packBits (vs.map fun v => finite32 v && bitAt v 31)) ++ leBytes 4 alpha ++ leBytes 4 (bit (!bad.isEmpty))
    nans := padTo 32 (packBits (vs.map fun v => !finite32 v))
    errs := vs.map (carryOut alpha)
    count := bad.length }

/-- R407: the header of a bucket. -/
def bucketHeader (g : Group) (layer : Nat) (step : Word32) (bucket blocks nans : Nat) (aborted : Bool) : List Byte :=
  leBytes 4 layer ++ leBytes 4 g.crc.toNat ++ leBytes 4 (layoutCrc (g.layout.getD [])) ++ leBytes 4 step.toNat ++ leBytes 4 bucket
    ++ leBytes 4 g.me ++ leBytes 4 (blocks + nans * 2 ^ 16) ++ leBytes 4 (bit aborted)

/-- R405 to R408, R421: block op.next of the layer; with the last block of a bucket, the bucket goes on its way. -/
def State.compressBlock (s : State) (g : Group) (l : LayerLayout) (op : ReduceOp) : Except Halt ReduceOp × State :=
  let rd := consortReader l.xdie
  let q := op.next
  let m := q / l.perBucket
  let k := q % l.perBucket
  let n := min 256 (l.elements - 256 * q)
  let blocks := l.blocksIn m
  let last := k + 1 == blocks
  let cb := l.cbuf + m * l.slot
  let nanVa := cb + 32 + 40 * blocks
  let whole := 32 + 40 * blocks + 36 * (op.nans.length + 1)
  let gva := l.grad + 256 * q * l.gradBytes
  let eva := l.err + 1024 * q
  match checkAll ([s.checkOwn .read gva (n * l.gradBytes), s.checkOwn .read eva (4 * n), s.checkOwn .write eva (4 * n),
      s.checkOwn .write (cb + 32 + 40 * k) 40] ++ (if last then [s.checkOwn .write cb whole, s.checkOwn .read cb whole] else [])) with
  | .error h => (.error h, s)
  | .ok _ =>
    match s.fetchOwn rd gva (n * l.gradBytes) with
    | (.error h, s) => (.error h, s)
    | (.ok gs, s) =>
      match s.fetchOwn rd eva (4 * n) with
      | (.error h, s) => (.error h, s)
      | (.ok es, s) =>
        let bank := s.antilogBank op.bank
        let p := packBlock ((List.range n).map fun i =>
          carryIn bank l.gradFmt (getLe gs (i * l.gradBytes) l.gradBytes) (get32 es (4 * i)))
        let s := (s.storeAt rd eva (p.errs.flatMap (leBytes 4))).storeAt rd (cb + 32 + 40 * k) p.bytes
        let nans := if p.count == 0 then op.nans else op.nans ++ [(k, p.nans)]
        let op := { op with next := q + 1, nans := nans, nanSent := op.nanSent + p.count }
        if !last then (.ok op, s)
        else
          let b := firstBucket (g.layout.getD []) op.layerPos + m
          let s := s.storeAt rd nanVa (nans.flatMap fun e => leBytes 4 e.1 ++ e.2)
          let s := s.storeAt rd cb (bucketHeader g l.layer op.step b blocks nans.length false)
          match s.fetchOwn rd cb (32 + 40 * blocks + 36 * nans.length) with
          | (.error h, s) => (.error h, s)
          | (.ok bytes, s) => (.ok { op with nans := [], outgoing := op.outgoing ++ [⟨b, b % g.size, 0, bytes⟩] }, s)

/-- R422: the buckets that have not been sent go as headers with ABORTED; the REDUCE will end as e. -/
def ReduceOp.abortRest (op : ReduceOp) (g : Group) (e : Ending) : ReduceOp :=
  let l := g.layer op.layerPos
  let first := firstBucket (g.layout.getD []) op.layerPos
  let empty (b : Nat) : Outgoing := ⟨b, b % g.size, 0, bucketHeader g l.layer op.step b 0 0 true⟩
  let sent := (op.outgoing.map fun o => if o.offset == 0 then empty o.bucket else o)
  let done := op.next / l.perBucket
  { op with
    outgoing := sent ++ ((List.range l.buckets).filter fun m => done ≤ m && !op.outgoing.any fun o => o.bucket == first + m).map
      fun m => empty (first + m)
    nans := []
    aborted := some e
    suspended := none }

/-! ## Sending (R408, R476) -/

/-- R475: bytes of a bucket reach the owner's inbound hold. -/
def State.takeBucket (s : State) (crc : Word32) (src bucket : Nat) (step : Word32) (offset : Nat) (bytes : List Byte) : State :=
  let mine (b : InBucket) : Bool := b.crc == crc && b.src == src && b.bucket == bucket && b.bytes.length == offset
  if offset == 0 then { s with coll := { s.coll with inbound := s.coll.inbound ++ [⟨crc, src, bucket, step, bytes, 0⟩] } }
  else { s with coll := { s.coll with inbound := updIf mine (fun b => { b with bytes := b.bytes ++ bytes }) s.coll.inbound } }

/-- A result or statistics frame stands in a hold. -/
def State.holdFrame (s : State) (f : HeldFrame) : State := { s with coll := { s.coll with held := s.coll.held ++ [f] } }

def HeldFrame.cost (f : HeldFrame) : Nat := ceilDiv (32 + f.payload.length) 64

/-- R475: the 1 MiB result hold of the X-die of a RESULT or STATS_OUT frame's port has no room for it. -/
def State.resultHoldFull (s : State) (f : HeldFrame) : Bool :=
  f.type != 8 && f.via.any fun v =>
    2 ^ 20 < f.payload.length + ((s.coll.held.filter fun g =>
      g.type != 8 && !g.owes && g.via.any fun w => w.1 / 4 == v.1 / 4).map fun g => g.payload.length).foldl (· + ·) 0

/-- R475: a frame from a port comes to its hold; while that is full, it stays in the port's buffer. -/
def State.enterHold (s : State) (f : HeldFrame) : State :=
  if s.resultHoldFull f then (f.via.elim s fun v => s.withhold v.1 v.2 f.cost).holdFrame { f with owes := true }
  else s.holdFrame f

/-- R475: a frame leaves its port's buffer. -/
def State.payFrame (s : State) (f : HeldFrame) : State := if f.owes then f.via.elim s fun v => s.owe v.1 v.2 f.cost else s

/-- R475: frames that wait in a port's buffer come into the hold, in order, as far as it has room. -/
def State.settleHold (s : State) : State :=
  (List.range s.coll.held.length).foldl (fun s i =>
    match s.coll.held[i]? with
    | none => s
    | some f =>
      if !f.owes || s.resultHoldFull f then s
      else
        let t := s.payFrame f
        { t with coll := { t.coll with held := t.coll.held.modify i fun f => { f with owes := false } } }) s

/-- Bytes of an owner's window that are spent. -/
def Group.spent (g : Group) (owner : Nat) : Nat := ((g.windows.find? fun w => w.1 == owner).map fun w => w.2).getD 0

def Group.setSpent (g : Group) (owner n : Nat) : Group :=
  { g with windows := (g.windows.filter fun w => w.1 != owner) ++ (if n == 0 then [] else [(owner, n)]) }

/-- R27: a Consort engine's frame goes over the Spine to the X-die of its port. -/
def State.sendFrom (s : State) (x : Nat) (f : Frame) : State :=
  (s.crossSpine (.x, x) (.x, s.ww.fabric.xdieTo f.dst) f.payload.length).sendFrame f

/-- R470: one BUCKET frame of an outgoing run, or STATS_IN frame of a run of index records (its ARG0[63:32] a DESIGN CHOICE, log 37). -/
def State.sendPart (s : State) (x : Nat) (g : Group) (index : Option Nat) (step : Word32) (o : Outgoing) (bytes : List Byte) : State :=
  match index with
  | some n =>
    if o.owner == g.me then s.holdFrame ⟨8, g.crc, g.rankOf g.me, BitVec.ofNat 32 n, BitVec.ofNat 32 (o.offset / 32), step, bytes,
      none, false⟩
    else s.sendFrom x (s.newFrame (g.rankOf o.owner) 8 2 (g.crc.toNat + n * 2 ^ 32) (o.offset / 32) step.toNat bytes)
  | none =>
    if o.owner == g.me then s.takeBucket g.crc (g.rankOf g.me) o.bucket step o.offset bytes
    else s.sendFrom x (s.newFrame (g.rankOf o.owner) 5 2 (g.crc.toNat + o.bucket * 2 ^ 32) o.offset step.toNat bytes)

/-- R476: sends what the window allows of one outgoing run, in frames of 512 bytes; what is left. -/
def State.sendRun (x num : Nat) (index : Option Nat) (step : Word32) : Nat → Outgoing → State → Outgoing × State
  | 0, o, s => (o, s)
  | fuel + 1, o, s =>
    match s.group? num with
    | none => (o, s)
    | some g =>
      let n := min 512 o.bytes.length
      let away := o.owner != g.me
      if n == 0 || (away && g.window < g.spent o.owner + n) then (o, s)
      else
        let s := s.sendPart x g index step o (o.bytes.take n)
        let s := if away then s.modGroup num fun g => g.setSpent o.owner (g.spent o.owner + n) else s
        State.sendRun x num index step fuel { o with offset := o.offset + n, bytes := o.bytes.drop n } s

/-- R408: the outgoing runs of one operation, in order to each owner; blocked are the owners whose window is spent. Answers what is left,
the bytes sent and the owners blocked. -/
def State.sendRuns (x num : Nat) (index : Option Nat) (step : Word32) : List Nat → List Outgoing → State →
    (List Outgoing × Nat × List Nat) × State
  | blocked, [], s => (([], 0, blocked), s)
  | blocked, o :: os, s =>
    let r : Outgoing × State :=
      if blocked.contains o.owner then (o, s) else State.sendRun x num index step (o.bytes.length / 512 + 1) o s
    let left := !r.1.bytes.isEmpty
    let t := State.sendRuns x num index step (if left then o.owner :: blocked else blocked) os r.2
    ((if left then r.1 :: t.1.1 else t.1.1, o.bytes.length - r.1.bytes.length + t.1.2.1, t.1.2.2), t.2)

/-- R408: whether an earlier layer of the group is still being compressed. -/
def State.behind (s : State) (op : ReduceOp) : Bool :=
  !op.stats && s.consorts.any fun c => c.active.any fun a =>
    a.group == op.group && !a.stats && a.begun && a.work.uid < op.work.uid

/-- The record count of a STATS operation. -/
def ReduceOp.index? (op : ReduceOp) : Option Nat := if op.stats then some (ReduceDesc.of op.work.desc).index else none

/-- R408, R421, R476: sends what can be sent of the operations of the groups. blocked: (group, owner). -/
def State.sendAll : List (Nat × Nat) → List ReduceOp → State → State
  | _, [], s => s
  | blocked, op :: ops, s =>
    if op.outgoing.isEmpty || s.behind op || s.compressionStopped op.work.uid then State.sendAll blocked ops s
    else
      let own := (blocked.filter fun b => b.1 == op.group).map fun b => b.2
      let r := State.sendRuns (s.consortOf op.work.uid) op.group op.index? op.step own op.outgoing s
      let s := r.2.modRunning op.work.uid fun op =>
        { op with outgoing := r.1.1, bytesSent := bump op.bytesSent r.1.2.1 }
      State.sendAll (blocked ++ r.1.2.2.map fun o => (op.group, o)) ops s

/-! ## Results at a member (R415, R416, R418, R419) -/

/-- The result header (its fields are R415's; their places a DESIGN CHOICE, log 37). -/
def resultHeader (bucket layer flags sat flush : Nat) : List Byte :=
  leBytes 4 bucket ++ leBytes 2 layer ++ leBytes 2 flags ++ leBytes 4 (min sat 0xFFFFFFFF) ++ leBytes 4 (min flush 0xFFFFFFFF)

/-- NaN elements among results. -/
def nanResults (l : LayerLayout) (bytes : List Byte) : Nat :=
  ((chunks l.resBytes bytes.length bytes).filter fun c => leNat c == (encodeNan l.resFmt).1).length

/-- R427: counters of the status record stop. -/
def stop32 (n : Nat) : Nat := min n 0xFFFFFFFF

/-- R418, R419: a result header is taken in. -/
def ReduceOp.header (op : ReduceOp) (h : List Byte) : ReduceOp :=
  let flags := get16 h 6
  { op with
    flags := Nat.lor op.flags flags
    sat := stop32 (op.sat + get32 h 8)
    flush := stop32 (op.flush + get32 h 12)
    mismatch := stop32 (op.mismatch + bit (bitAt flags 0)) }

/-- R419: the SUM bytes of an ABORTED bucket become undefined. -/
def State.forgetSpan (s : State) (va n : Nat) : State :=
  match s.translateSpan .device .write va n with
  | .error _ => s
  | .ok ts =>
    let s := ts.foldl (fun s p =>
      match p.1 with
      | .mem sp o => s.setStore sp ((s.mem.store sp).forget o (o + p.2) s.freeCtr)
      | _ => s) s
    { s with freeCtr := s.freeCtr + 1 }

/-- R401: where the results of bucket m of a layer lie. -/
def LayerLayout.sumVa (l : LayerLayout) (m : Nat) : Nat := l.sum + m * 256 * l.perBucket * l.resBytes

/-- Bytes of a bucket's results, the header not counted, are written to the member's SUM from byte o on. -/
def State.resultWrite (s : State) (l : LayerLayout) (m o : Nat) (bytes : List Byte) : Except Halt Unit × State :=
  match s.checkOwn .write (l.sumVa m + o) bytes.length with
  | .error h => (.error h, s)
  | .ok _ => (.ok (), s.storeAt (consortReader l.xdie) (l.sumVa m + o) bytes)

/-- R421, R373: an operation whose compression is suspended goes on taking frames in; one that waits for another frame's fault does not. -/
def State.takesFrames (s : State) (op : ReduceOp) : Bool := op.suspended.isNone || s.compressionStopped op.work.uid

/-- A frame's fault suspends its operation, or, while its compression is suspended already, leaves the frame in the hold (log 38). -/
def State.frameFault (s : State) (op : ReduceOp) (x : Suspension) : State :=
  if op.suspended.isSome then s else s.modRunning op.work.uid fun op => { op with suspended := some x }

/-- R415: one RESULT frame for a running operation: whether it has been taken in. -/
def State.takeResult (s : State) (g : Group) (op : ReduceOp) (f : HeldFrame) (l : LayerLayout) (m : Nat) : Bool × State :=
  let o := f.tag.toNat
  let n := l.elementsIn m * l.resBytes
  let data := if o == 0 then (f.payload.drop 16).take n else f.payload.take (16 + n - o)
  let at_ := if o == 0 then 0 else o - 16
  let op := if o == 0 then op.header f.payload else op
  let bare := o == 0 && field (get16 f.payload 6) 3 2 != 0
  let fin := bare || n ≤ at_ + data.length
  let b := f.upper.toNat
  let put (op : ReduceOp) (s : State) : Bool × State :=
    (true, s.modRunning op.work.uid fun _ => { op with
      nanResult := stop32 (op.nanResult + nanResults l data)
      arrived := if fin then insertNat b op.arrived else op.arrived
      wrote := if fin && !bare && !op.lost.contains b then op.wrote + 1 else op.wrote })
  if g.failed then put op s
  else if bare then put op (s.forgetSpan (l.sumVa m) n)
  else
    match s.resultWrite l m at_ data with
    | (.ok _, s) => put op s
    | (.error h, s) =>
      let lost := { op with lost := insertNat b op.lost }
      if op.aborted.isSome then put lost s
      else
        let r := s.haltEnd h
        (match r.1.1 with
        | some x => (false, r.2.frameFault op x)
        | none => put { lost with aborted := r.1.2 } r.2)

/-! ## The statistics collective (R426) -/

/-- The tables that R312's last lines use. -/
def State.statTables (s : State) (bank : Bool) : Bound3 :=
  let b := s.antilogBank bank
  let original := match b with
    | none => true
    | some _ => (List.range 256).all fun i => antilogEntry b i == startupEntry i
  { bank := b
    replaced := if original then none else b
    steps := fun _ => 0
    upper := fun _ => 0 }

def State.gather? (s : State) (uid : Nat) : Option StatsGather := s.coll.gathers.find? fun x => x.uid == uid

def State.setGather (s : State) (x : StatsGather) : State :=
  { s with coll := { s.coll with gathers := (s.coll.gathers.filter fun y => y.uid != x.uid) ++ [x] } }

/-- How many records of member i have come, and of how many. -/
def StatsGather.count? (x : StatsGather) (i : Nat) : Option (Nat × Nat) := (x.counts.find? fun c => c.1 == i).map fun c => c.2

/-- Member i has sent n of its records, under a step. -/
def StatsGather.note (x : StatsGather) (i n of_ : Nat) (step : Word32) : StatsGather :=
  { x with
    counts := (x.counts.filter fun c => c.1 != i) ++ [(i, n, of_)]
    steps := if x.steps.any fun c => c.1 == i then x.steps else x.steps ++ [(i, step)] }

/-- All records of every member have come. -/
def StatsGather.whole (x : StatsGather) (size : Nat) : Bool :=
  (List.range size).all fun i => (x.count? i).any fun c => c.2 ≤ c.1

/-- R476: the owner grants bytes back. -/
def State.grant (s : State) (x : Nat) (g : Group) (source n : Nat) : State :=
  if source == g.me || n == 0 then s else s.sendFrom x (s.newFrame (g.rankOf source) 6 1 g.crc.toNat 0 n [])

/-- R426: a STATS_IN frame at the owner, for its oldest running STATS operation. Answers whether the frame has been taken in. -/
def State.takeStats (s : State) (g : Group) (op : ReduceOp) (f : HeldFrame) : Bool × State :=
  let d := ReduceDesc.of op.work.desc
  let x := (s.gather? op.work.uid).getD ⟨g.num, op.work.uid, [], [], false⟩
  match g.rank? f.src with
  | none => (true, s)
  | some i =>
    -- a frame that does not say how many records its member has is taken to agree
    let c := (x.count? i).getD (0, if f.upper == 0#32 then d.index else f.upper.toNat)
    let n := min (f.payload.length / 32) (c.2 - c.1)
    -- a frame beyond this collective's records is the next one's
    if c.2 ≤ c.1 then (false, s)
    else if f.tag.toNat != c.1 then (true, s)
    else
      let x := { x.note i (c.1 + n) c.2 f.step with bad := x.bad || c.2 != d.index }
      let va := d.stage + (i * d.index + c.1) * 32
      let data := f.payload.take (32 * min n (d.index - c.1))
      match s.checkOwn .write va data.length with
      | .error h =>
        let r := s.haltEnd h
        (match r.1.1 with
        | some y => (false, r.2.frameFault op y)
        | none => (true, r.2.modRunning op.work.uid fun op => { op with ended := r.1.2 }))
      | .ok _ => (true, (s.storeAt (consortReader (s.consortOf op.work.uid)) va data).setGather x)

/-- A STATS_OUT frame, or the same handed to the owner itself: flags of R419 in upper (log 37). -/
def State.takeFinal (s : State) (op : ReduceOp) (f : HeldFrame) : Bool × State :=
  let d := ReduceDesc.of op.work.desc
  let i := f.tag.toNat
  let flags := f.upper.toNat % 16
  let op := { op with flags := Nat.lor op.flags flags, mismatch := if bitAt flags 0 then 1 else op.mismatch }
  let keep (op : ReduceOp) (s : State) : Bool × State :=
    (true, s.modRunning op.work.uid fun _ => { op with
      arrived := op.arrived ++ ((List.range (f.payload.length / 16)).map fun j => i + j)
      wrote := op.wrote + f.payload.length / 16 })
  if bitAt flags 3 then (true, s.modRunning op.work.uid fun _ => { op with ended := some ⟨0x0142, 0⟩ })
  else
    match s.checkOwn .write (d.dst + 16 * i) f.payload.length with
    | .ok _ => keep op (s.storeAt (consortReader (s.consortOf op.work.uid)) (d.dst + 16 * i) f.payload)
    | .error h =>
      let r := s.haltEnd h
      match r.1.1 with
      | some y => (false, r.2.frameFault op y)
      | none => (true, r.2.modRunning op.work.uid fun _ => { op with ended := r.1.2 })

/-- R426: record i of every member, merged in increasing index: the FINAL record and whether the variance was clamped. -/
def mergeStats (t : Bound3) (eps : Nat) (rs : List (List Byte)) : List Byte × Bool :=
  match rs with
  | [] => (zeros 16, false)
  | r :: rest =>
    let p := rest.foldl (fun a b => (statMerge t 0 0 a b).1) r
    let f := statMerge t 1 eps (zeros 32) p
    (f.1, f.2.2)

/-- The frames of FINAL records, 32 at a time. -/
def finalFrames (recs : List (List Byte)) : List (Nat × List Byte) :=
  (chunks 32 recs.length recs).mapIdx fun i c => (32 * i, c.flatten)

/-- R426: the owner hands results to itself and to each other member, in increasing index. -/
def State.spreadFinals (s : State) (x : Nat) (g : Group) (step : Word32) (flags : Nat) (frames : List (Nat × List Byte)) : State :=
  let s := frames.foldl (fun s f =>
    s.holdFrame ⟨9, g.crc, g.rankOf g.me, BitVec.ofNat 32 flags, BitVec.ofNat 32 f.1, step, f.2, none, false⟩) s
  ((List.range g.size).filter fun i => i != g.me).foldl (fun s i =>
    frames.foldl (fun s f =>
      s.sendFrom x (s.newFrame (g.rankOf i) 9 3 (g.crc.toNat + flags * 2 ^ 32) f.1 step.toNat f.2)) s) s

/-- R426: when every member's records are present, the owner forms and sends the results. -/
def State.ownStats (s : State) (g : Group) (op : ReduceOp) : State :=
  let d := ReduceDesc.of op.work.desc
  match s.gather? op.work.uid with
  | none => s
  | some x =>
    if !x.whole g.size then s
    else
      let drop (s : State) : State := { s with coll := { s.coll with gathers := s.coll.gathers.filter fun y => y.uid != x.uid } }
      if x.bad then (drop s).spreadFinals (s.consortOf op.work.uid) g op.step 8 [(0, [])]
      else
        match s.fetchOwn (consortReader (s.consortOf op.work.uid)) d.stage (g.size * d.index * 32) with
        | (.error h, s) =>
          let r := s.haltEnd h
          (match r.1.1 with
          | some y => r.2.modRunning op.work.uid fun op => { op with suspended := some y }
          | none => (drop r.2).modRunning op.work.uid fun op => { op with ended := r.1.2 })
        | (.ok bytes, s) =>
          let rec_ (i r : Nat) : List Byte := (bytes.drop ((r * d.index + i) * 32)).take 32
          let t := s.statTables op.bank
          let fs := (List.range d.index).map fun i => mergeStats t d.eps ((List.range g.size).map (rec_ i))
          let differ := (x.steps.map fun p => p.2).eraseDups.length != 1
          let s := (drop s).modRunning op.work.uid fun op =>
            { op with flush := stop32 (fs.filter fun f => f.2).length }
          s.spreadFinals (s.consortOf op.work.uid) g op.step (bit differ) (finalFrames (fs.map fun f => f.1))

/-! ## Taking frames in -/

/-- The oldest running STATS operation of a group. -/
def State.statsOp (s : State) (num : Nat) : Option ReduceOp := s.reduces.find? fun op => op.stats && op.group == num && op.ended.isNone

/-- Offers a held frame to the operation that it is for: whether it leaves the hold. -/
def State.offer (s : State) (f : HeldFrame) : Bool × State :=
  match s.groupOfCrc f.crc with
  | none => (f.type != 8, s)
  | some g =>
    if f.type == 7 then
      match g.find f.upper.toNat with
      | none => (true, s)
      | some (j, l, m) =>
        match s.reduces.find? fun op => !op.stats && op.group == g.num && op.layerPos == j && op.ended.isNone
            && !op.arrived.contains f.upper.toNat with
        | none => (true, s)
        | some op => if s.takesFrames op then s.takeResult g op f l m else (false, s)
    else
      match s.statsOp g.num with
      | none => (f.type == 9, s)
      | some op =>
        if !s.takesFrames op then (false, s)
        else if f.type == 8 then
          let r := s.takeStats g op f
          -- R476: bytes that have been taken in are granted back
          (r.1, if r.1 then r.2.grant (s.consortOf op.work.uid) g ((g.rank? f.src).getD g.me) f.payload.length else r.2)
        else s.takeFinal op f

/-- Every held frame is offered once, in order; those not taken in stay. -/
def State.offerAll : List HeldFrame → State → State
  | [], s => s
  | f :: fs, s =>
    let r := s.offer f
    State.offerAll fs (if r.1 then r.2.payFrame f else r.2.holdFrame f)

def State.takeHeld (s : State) : State := (State.offerAll s.coll.held { s with coll := { s.coll with held := [] } }).settleHold

/-- R426: owners whose records are all present. -/
def State.ownAll (s : State) : State :=
  s.coll.groups.foldl (fun s g =>
    if g.me != 0 then s
    else
      match s.statsOp g.num with
      | none => s
      | some op => if op.suspended.isSome then s else s.ownStats g op) s

/-! ## The end of a REDUCE (R416, R427) -/

/-- R427: the status record: DETAIL is 0 but for MALFORMED. HOLD_NS, TRIGGER_NS and ELAPSED_NS are free values (log 11). -/
def reduceRecord (op : ReduceOp) (e : Ending) (times : List Word64) : List Byte :=
  let detail := if e.status == stMalformed then e.detail else 0
  leBytes 4 (e.status + detail % 32768 * 2 ^ 16 + 2 ^ 31) ++ leBytes 4 op.flags ++ leBytes 4 (stop32 op.wrote)
    ++ leBytes 4 (stop32 op.nanSent) ++ leBytes 4 op.nanResult ++ leBytes 4 op.sat ++ leBytes 4 op.flush ++ leBytes 4 op.mismatch
    ++ leBytes 8 op.bytesSent.toNat ++ times.flatMap fun t => leBytes 8 t.toNat

/-- R416, R417, R422, R426: how an operation that has all it waits for ends. -/
def ReduceOp.outcome (op : ReduceOp) (g : Group) : Option Ending :=
  let need := op.index?.getD (g.layer op.layerPos).buckets
  if !op.outgoing.isEmpty || op.arrived.length < need then none
  else if bitAt op.flags 3 then some ⟨0x0142, 0⟩
  else some (op.aborted.getD ⟨stOk, 0⟩)

/-- The schedule entry of a layer (R433). -/
def State.schedule? (s : State) (layer : Nat) : Option ScheduleEntry := s.update.schedule.find? fun e => e.layer == layer

/-- An update that waits to start (R447). -/
def newUpdate (layer : Nat) (g : Group) (op : ReduceOp) (e : Ending) : UpdateOp :=
  { layer := layer, group := g.num, carrel := g.carrel, layout := [], step := op.step, reduce := e, flags := op.flags, started := false,
    bank := false, pass := 1, next := 0, ahead := [], partials := [], trust := 0#32, scale := 0#32, counts := Counts.zero, updated := 0,
    frozen := 0, untouched := 0, nonfinite := 0, flips := 0, granules := 0, stopped := [], ended := none, recorded := false,
    signalled := false }

/-- R447: the update that a REDUCE of MODE GRADIENT starts once its record is written, however it has ended: that of the layer which its GROUP
and INDEX name, where there is one and its entry is enabled. -/
def State.armUpdate (s : State) (op : ReduceOp) (e : Ending) : State :=
  match s.group? op.group with
  | none => s
  | some g =>
    let layer := (g.layer op.layerPos).layer
    match s.schedule? layer with
    | none => s
    | some x =>
      if field (get8 op.work.desc 0) 5 4 != 0 || (g.layout.getD []).length ≤ op.layerPos || !bitAt (get32 x.bytes 0) 7
          || field (get32 x.bytes 4) 19 16 != g.num then s
      else { s with update := { s.update with ops := s.update.ops ++ [newUpdate layer g op e] } }

/-- Takes an operation off its engine. -/
def State.dropReduce (s : State) (uid : Nat) : State :=
  { s with consorts := s.consorts.map fun c => { c with
      running := c.running.filter fun op => op.work.uid != uid
      active := c.active.filter fun op => op.work.uid != uid } }

/-- A REDUCE leaves its engine and completes. -/
def State.reduceDone (s : State) (op : ReduceOp) (e : Ending) : State :=
  (s.dropReduce op.work.uid).endWork op.work e.status e.detail (BitVec.ofNat 32 op.flags) (BitVec.ofNat 32 op.nanResult)

/-- R416, R230: the record of an ended REDUCE, its completion, and the update it starts. -/
def State.closeReduce (s : State) (x : Nat) (op : ReduceOp) (e : Ending) : State :=
  let keep (op : ReduceOp) (s : State) : State := s.modConsort x fun c =>
    { c with
      active := c.active.filter fun o => o.work.uid != op.work.uid
      running := (c.running.filter fun o => o.work.uid != op.work.uid) ++ [op] }
  let f := s.freshes 3
  match f.2.close (consortReader x) (.consort x) (ReduceDesc.of op.work.desc).status e (reduceRecord op e f.1) with
  | .waits y s => keep { op with suspended := some y, ended := some e } s
  | .held => keep { op with ended := some e } s
  | .done written y s => if written then (s.reduceDone op y).armUpdate op e else s.reduceDone op y

/-- Ends an operation of an engine that has all it waits for. -/
def State.endReduce (s : State) (x : Nat) (op : ReduceOp) : State :=
  if op.suspended.isSome then s
  else
    match op.ended.or ((s.group? op.group).bind op.outcome) with
    | none => s
    | some e => s.closeReduce x op e

def State.endReduces (s : State) : State :=
  (List.range s.consorts.length).foldl (fun s x =>
    ((s.consort? x).elim [] fun c => c.running).foldl (fun s op => s.endReduce x op) s) s

/-- What follows a command of the collectives: frames are sent and taken in, statistics merged, operations ended. The second round
takes in what an owner has handed to itself. -/
def State.collect (s : State) : State :=
  let s := State.sendAll [] s.reduces s
  let s := s.takeHeld.ownAll
  s.takeHeld.endReduces

/-! ## REDUCE_GRADIENT and REDUCE_STATS (R402 to R408) -/

def newReduce (w : Work) : ReduceOp :=
  let d := ReduceDesc.of w.desc
  { work := w, group := d.group, stats := d.stats, layerPos := if d.stats then 0 else d.index, step := d.step, begun := false,
    bank := false, next := 0, nans := [], outgoing := [], arrived := [], lost := [], flags := 0, nanSent := 0, nanResult := 0, sat := 0, flush := 0,
    mismatch := 0, wrote := 0, bytesSent := 0#64, aborted := none, suspended := none, ended := none }

/-- The compressed operation waits for its results. -/
def State.reduceSent (s : State) (x : Nat) (op : ReduceOp) : State :=
  (s.modConsort x fun c => { c with active := none, running := c.running ++ [op] }).collect

/-- R421, R422: compression stops. -/
def State.reduceHalt (s : State) (x : Nat) (g : Group) (op : ReduceOp) (h : Halt) : State :=
  let r := s.haltEnd h
  match r.1.2 with
  | none => r.2.setReduce x (some { op with suspended := r.1.1 })
  | some e => if op.stats then r.2.closeReduce x { op with ended := some e } e else r.2.reduceSent x (op.abortRest g e)

/-- Buckets that are complete leave while their layer is still being compressed (R408). -/
def State.sendEarly (s : State) (op : ReduceOp) : ReduceOp × State :=
  let earlier := s.reduces.any fun o => !o.stats && o.group == op.group && o.work.uid < op.work.uid && !o.outgoing.isEmpty
  if earlier || s.behind op then (op, s)
  else
    let r := State.sendRuns (s.consortOf op.work.uid) op.group none op.step [] op.outgoing s
    ({ op with outgoing := r.1.1, bytesSent := bump op.bytesSent r.1.2.1 }, r.2)

/-- R405: the blocks of the layer, until compression stops or is complete. -/
def State.compressRun (x : Nat) (g : Group) (l : LayerLayout) : Nat → ReduceOp → State → State
  | 0, op, s => s.reduceSent x op
  | n + 1, op, s =>
    match s.compressBlock g l op with
    | (.error h, s) => s.reduceHalt x g op h
    | (.ok op, s) =>
      let r := s.sendEarly op
      State.compressRun x g l n r.1 r.2

/-- R426: a member's records go to the owner, member 0. -/
def State.statsGo (s : State) (x : Nat) (g : Group) (op : ReduceOp) : State :=
  let d := ReduceDesc.of op.work.desc
  match s.fetchOwn (consortReader x) d.src (32 * d.index) with
  | (.error h, s) => s.reduceHalt x g op h
  | (.ok bytes, s) => s.reduceSent x { op with outgoing := [⟨0, 0, 0, bytes⟩] }

def State.reduceGo (s : State) (x : Nat) (g : Group) (op : ReduceOp) : State :=
  if op.stats then s.statsGo x g op
  else
    let l := g.layer op.layerPos
    s.compressRun x g l (l.blocks - op.next) op

/-- A descriptor leaves its engine's queue. -/
def State.leaveConsort (s : State) (x uid : Nat) : State :=
  s.modConsort x fun c => { c with queue := c.queue.filter fun w => w.uid != uid }

/-- R403: the trigger of the operation at the head of an engine. -/
def State.reduceTrigger (s : State) (x : Nat) (g : Group) (op : ReduceOp) : State :=
  let d := ReduceDesc.of op.work.desc
  let begin_ (s : State) : State :=
    let op := { op with begun := true, bank := s.tables.antilog.bankOf (.consort x) }
    ((s.setReduce x (some op)).leaveConsort x op.work.uid).reduceGo x g op
  if d.trigger == 0 then begin_ s
  else
    match s.fetchOwn (consortReader x) d.trigger 8 with
    | (.ok b, s) => if leNat b < d.count then s else begin_ s
    | (.error h, s) =>
      let r := (s.leaveConsort x op.work.uid).haltEnd h
      match r.1.2 with
      | none => r.2.setReduce x (some { op with suspended := r.1.1 })
      | some e => r.2.closeReduce x op e

/-- R404: a descriptor of a group arrives: it names the next layer, or is out of order. n: LAYERS. -/
def Group.arrival (n : Nat) (g : Group) (w : Work) : Group :=
  if w.uid < g.seen then g
  else if get32 w.desc 8 == g.nextIndex then { g with seen := w.uid + 1, nextIndex := (g.nextIndex + 1) % n }
  else { g with seen := w.uid + 1, late := g.late ++ [w.uid] }

/-- R404: a group's gradient descriptors are in layout order by their arrival, which for those of one SUBMIT queue is their order in it,
whichever engines they go to (DEDUCED, log 38). -/
def State.arrivals (s : State) (num : Nat) : State :=
  let ws := ((s.consorts.flatMap fun c => c.queue).filter fun w =>
    reducesGroup num w.desc && field (get8 w.desc 0) 5 4 == 0 && (reduceBad s.fuses.part w.desc).isNone).mergeSort fun a b => a.uid ≤ b.uid
  s.modGroup num fun g => if g.layout.isNone then g else ws.foldl (Group.arrival (g.layout.getD []).length) g

/-- R402 to R404, R424, R447: the descriptor at the head of an engine's queue. -/
def State.reduceHead (s : State) (x : Nat) (w : Work) : State :=
  let op := newReduce w
  let finish (e : Ending) (s : State) : State := (s.leaveConsort x w.uid).closeReduce x op e
  match reduceBad s.fuses.part w.desc with
  | some f => finish ⟨stMalformed, f⟩ s
  | none =>
    let s := s.arrivals op.group
    match s.group? op.group with
    | none => finish ⟨0x0144, 0⟩ s
    | some g =>
      if g.layout.isNone then finish ⟨0x0144, 0⟩ s
      else if g.failed then finish ⟨stBadState, 0⟩ s
      else if !op.stats && g.late.contains w.uid then
        finish ⟨0x0143, 0⟩ (s.modGroup g.num fun g => { g with late := g.late.erase w.uid })
      else if !op.stats && s.updating (g.layer op.layerPos).layer then s
      else s.reduceTrigger x g op

/-- A Consort engine goes on with the descriptor it works on, or with the head of its queue. -/
def State.reduceCommand (s : State) (x : Nat) (stats : Bool) : State :=
  let is (w : Work) : Bool := (ReduceDesc.of w.desc).stats == stats
  match s.consort? x with
  | none => s
  | some c =>
    if !s.enginesRun then s
    else
      match c.active with
      | some op =>
        if !is op.work || op.suspended.isSome then s
        else
          (match s.group? op.group with
          | none => s
          | some g => if op.begun then s.reduceGo x g op else s.reduceTrigger x g op)
      | none =>
        match c.queue with
        | [] => s
        | w :: _ => if is w && s.mayStart w then s.reduceHead x w else s

/-- R402 to R408: REDUCE of MODE GRADIENT. -/
def execReduceGradient (xdie : Nat) (s : State) : Host.Outcome State Fault Refusal := s.after <| .next (s.reduceCommand xdie false)

/-- R426: REDUCE of MODE STATS. -/
def execReduceStats (xdie : Nat) (s : State) : Host.Outcome State Fault Refusal := s.after <| .next (s.reduceCommand xdie true)

/-! ## Summation at the owner (R409 to R413) -/

/-- R409: address and bytes of burst u of bucket m in the owner's SUM. -/
def LayerLayout.burstVa (l : LayerLayout) (m u : Nat) : Nat := l.sum + (m * 256 * l.perBucket + 16 * u) * l.resBytes

/-- R409: the port of a burst: die kind, die, and controller (8 for a D-die). A burst whose page is not mapped goes to the first port of
its tier (DESIGN CHOICE, log 38). -/
def State.portOf (s : State) (l : LayerLayout) (m u : Nat) : Nat × Nat :=
  match s.lookup (l.burstVa m u) with
  | some (.mem .near o, _) => (let p := s.place .near o; s.fuses.part.controller .near p.1 p.2.1)
  | some (.mem .dep o, _) => (let p := s.place .dep o; s.fuses.part.controller .dep p.1 p.2.1)
  | _ => (0, 0)

/-- The die of a port. -/
def portDie (port : Nat × Nat) : DieKind × Nat := if port.2 == 8 then (.d, port.1) else (.c, port.1)

def Group.own? (s : State) (g : Group) (b : Nat) : OwnBucket :=
  (s.coll.own.find? fun o => o.group == g.num && o.bucket == b).getD ⟨g.num, b, 0, false, [], []⟩

def State.setOwn (s : State) (o : OwnBucket) : State :=
  { s with coll := { s.coll with own := (s.coll.own.filter fun p => !(p.group == o.group && p.bucket == o.bucket)) ++ [o] } }

/-- Whether a burst is burst u of bucket b of a group, in a round of the bucket. -/
def PortBurst.is (g r b u : Nat) (p : PortBurst) : Bool := p.group == g && p.round == r && p.bucket == b && p.burst == u

def State.portBurst? (s : State) (g r b u : Nat) : Option PortBurst := s.coll.portBursts.find? (PortBurst.is g r b u)

def State.setPortBurst (s : State) (p : PortBurst) : State :=
  { s with coll := { s.coll with
      portBursts := (s.coll.portBursts.filter fun q => !q.is p.group p.round p.bucket p.burst) ++ [p] } }

/-- R412: every contribution has come and none waits for a fault. -/
def PortBurst.complete (p : PortBurst) (size : Nat) : Bool := p.got.length == size && p.suspended.isNone

/-- The owned buckets of a group (R401). -/
def Group.owned (g : Group) : List Nat := (List.range g.total).filter fun b => b % g.size == g.me

/-- R412: the first burst at a port, in the order of the rounds and then of the bursts, of a bucket, that is not complete. -/
def State.lowestOf (s : State) (g : Group) (port : Nat × Nat) (b : Nat) : Option (Nat × Nat × Nat) :=
  match g.find b with
  | none => none
  | some (_, l, m) =>
    let ahead := (s.coll.portBursts.filter fun p => p.group == g.num && p.bucket == b).length
    (List.range (ahead + 1)).findSome? fun i =>
      let r := (Group.own? s g b).rounds + i
      ((List.range (l.burstsIn m)).find? fun u =>
        match s.portBurst? g.num r b u with
        | some p => (p.die, p.unit) == port && !p.complete g.size
        | none => s.portOf l m u == port).map fun u => (r, b, u)

/-- R412: bursts are ordered by step sequence, then by bucket, then by burst. -/
def burstBefore (x y : Nat × Nat × Nat) : Bool :=
  x.1 < y.1 || (x.1 == y.1 && (x.2.1 < y.2.1 || (x.2.1 == y.2.1 && x.2.2 ≤ y.2.2)))

/-- R412: the group's lowest incomplete burst at a port: round, bucket, burst. -/
def State.lowestAt (s : State) (g : Group) (port : Nat × Nat) : Option (Nat × Nat × Nat) :=
  ((g.owned.filterMap (s.lowestOf g port)).mergeSort burstBefore).head?

/-- R412: the slots a burst holds at its port. -/
def State.slotsOf (s : State) (p : PortBurst) : Nat :=
  match s.group? p.group with
  | none => 0
  | some g => if p.suspended.isSome then max 1 (g.heldOf p.got).length else (g.heldOf p.got).length

/-- R412: pool slots in use at a port. -/
def State.poolUsed (s : State) (port : Nat × Nat) : Nat :=
  let low := s.coll.groups.map fun g => (g.num, s.lowestAt g port)
  ((s.coll.portBursts.filter fun p => (p.die, p.unit) == port && !low.contains (p.group, some (p.round, p.bucket, p.burst))).map
    s.slotsOf).foldl (· + ·) 0

/-- R412: bursts in progress at a port. -/
def State.inProgress (s : State) (port : Nat × Nat) : Nat :=
  (s.coll.portBursts.filter fun p => (p.die, p.unit) == port
    && match s.group? p.group with | some g => !p.complete g.size | none => false).length

/-- R412: slots of a port that no group has reserved. -/
def State.poolSize (s : State) : Nat := 8192 - (s.coll.groups.map Group.size).foldl (· + ·) 0

/-- R412: whether the port admits one more contribution to a burst. The lowest burst of a group is always admitted (R414), and then the
limit of 32 does not stand in its way (DEDUCED, log 38). -/
def State.admits (s : State) (g : Group) (p : PortBurst) (c : Contribution) : Bool :=
  let port := (p.die, p.unit)
  let waits := p.suspended.isSome || (g.heldOf (p.got ++ [c])).contains c.source
  s.lowestAt g port == some (p.round, p.bucket, p.burst)
    || ((!waits || s.poolUsed port < s.poolSize) && (!p.got.isEmpty || s.inProgress port < 32))

/-- What the bytes of a bucket that have come say of burst u: the contribution, once they are enough (R406, R407, R417, R422). A burst whose
header names another group or bucket is none (R417). -/
def InBucket.contribution (g : Group) (b : InBucket) (source blocks u : Nat) : Option Contribution :=
  if b.bytes.length < 32 || get32 b.bytes 4 != g.crc.toNat || get32 b.bytes 0x10 != b.bucket then none
  else
    let alone (bad : Bool) : Contribution := ⟨source, BitVec.ofNat 32 (get32 b.bytes 0xC), 0#32, 0#16, 0#16, true, bad⟩
    let differs := get32 b.bytes 8 != layoutCrc (g.layout.getD [])
    if differs then some (alone true)
    else if bitAt (get32 b.bytes 0x1C) 0 then some (alone false)
    else
      let k := u / 16
      let blk := (b.bytes.drop (32 + 40 * k)).take 40
      let has (i : Nat) : Bool := bitAt (get32 b.bytes (32 + 40 * i + 0x24)) 0
      let entry := 32 + 40 * blocks + 36 * ((List.range k).filter has).length
      if b.bytes.length < 32 + 40 * (k + 1) || (has k && b.bytes.length < entry + 36) then none
      else
        some ⟨source, BitVec.ofNat 32 (get32 b.bytes 0xC), BitVec.ofNat 32 (get32 blk 0x20), BitVec.ofNat 16 (get16 blk (2 * (u % 16))),
          if has k then BitVec.ofNat 16 (get16 b.bytes (entry + 4 + 2 * (u % 16))) else 0#16, false, false⟩

/-! ## A bucket is complete (R415 to R420, R422) -/

/-- What the bursts of a bucket come to: result bytes, flags, counts, the first NaN. -/
structure Summed where
  bytes : List Byte
  flags : Nat
  sat   : Nat
  flush : Nat
  nan   : Option (Nat × Option Nat)

/-- The result of burst u. -/
def burstResult (g : Group) (l : LayerLayout) (m u : Nat) (got : List Contribution) : Summed :=
  let n := min 16 (l.elementsIn m - 16 * u)
  let rs := (List.range n).map (burstElement g l got)
  { bytes := rs.flatMap fun r => leBytes l.resBytes r.1
    flags := 0
    sat := (rs.filter fun r => r.2.1 == .overflow || r.2.1 == .saturated).length
    flush := (rs.filter fun r => r.2.1 == .flushed).length
    nan := ((List.range n).find? fun i => ((rs.map fun r => r.1).getD i 0) == (encodeNan l.resFmt).1).map fun i =>
      (m * 256 * l.perBucket + 16 * u + i, ((rs.map fun r => r.2.2).getD i none)) }

def Summed.join (a b : Summed) : Summed :=
  ⟨a.bytes ++ b.bytes, Nat.lor a.flags b.flags, a.sat + b.sat, a.flush + b.flush, a.nan.or b.nan⟩

/-- R418, R419: the bucket's results and flags. -/
def sumBucket (g : Group) (l : LayerLayout) (m : Nat) (aborted : Bool) (ps : List PortBurst) : Summed :=
  let all := ps.flatMap fun p => p.got
  let steps := (all.map fun c => c.step).eraseDups
  let bad := all.any fun c => c.badLayout
  let off := aborted || all.any fun c => c.aborted
  let r := if off then ⟨[], 0, 0, 0, none⟩
    else (ps.map fun p => burstResult g l m p.burst p.got).foldl Summed.join ⟨[], 0, 0, 0, none⟩
  { r with flags := bit (1 < steps.length) + 2 * bit r.nan.isSome + 4 * bit off + 8 * bit bad }

/-- R415: one burst's results are written to the owner's SUM: the burst it is suspended as, and whether the bucket is now ABORTED. -/
def State.burstWrite (s : State) (g : Group) (l : LayerLayout) (m : Nat) (p : PortBurst) : (Option Suspension × Bool) × State :=
  let bytes := (burstResult g l m p.burst p.got).bytes
  let va := l.burstVa m p.burst
  match s.checkOwn .atomic va bytes.length with
  | .ok _ => ((none, false), s.storeAt portReader va bytes)
  | .error h =>
    let r := s.haltEnd h
    ((r.1.1, r.1.1.isNone), r.2)

/-- R420: the record of a round of a layer, where the owned buckets' results are in: the lowest that held a NaN. -/
def State.nanRecord (s : State) (g : Group) (l : LayerLayout) (os : List OwnBucket) (round : Nat) : State :=
  match os.findSome? fun o => (o.nans.find? fun n => n.1 == round).map fun n => (o.bucket, n.2) with
  | none => s
  | some (b, e, source, step) =>
    let s := s.log { cls := 0x0040, severity := 0, siteKind := 7, site := 0, unit := 0xFFFF, injected := false,
                     payload := [l.layer, step.toNat, b, source % 4096, e % 2 ^ 32, e / 2 ^ 32] }
    os.foldl (fun s o => s.setOwn { Group.own? s g o.bucket with nans := (Group.own? s g o.bucket).nans.filter fun n => n.1 != round }) s

/-- R420: the records of a layer's rounds that every owned bucket has completed, or of all. -/
def State.nanRecords (s : State) (g : Group) (j : Nat) (all : Bool) : State :=
  let l := g.layer j
  let first := firstBucket (g.layout.getD []) j
  let os := (((List.range l.buckets).map fun m => first + m).filter fun b => b % g.size == g.me).map (Group.own? s g)
  let rounds := ((os.flatMap fun o => o.nans.map fun n => n.1).eraseDups.filter fun r => all || os.all fun o => r < o.rounds).mergeSort
  rounds.foldl (fun s r => s.nanRecord g l (os.map fun o => Group.own? s g o.bucket) r) s

/-- R420: a group fails or goes: what is known of each layer is recorded (DEDUCED, log 38). -/
def State.nanFlush (s : State) (g : Group) : State :=
  (List.range (g.layout.getD []).length).foldl (fun s j => s.nanRecords g j true) s

/-- R415: the results go to the other members, in increasing index, and to this member's REDUCE. -/
def State.spreadResult (s : State) (x : Nat) (g : Group) (b : Nat) (step : Word32) (bytes : List Byte) : State :=
  let parts := (chunks 512 bytes.length bytes).mapIdx fun i c => (512 * i, c)
  ((List.range g.size).filter fun i => i != g.me).foldl (fun s i =>
    parts.foldl (fun s p =>
      s.sendFrom x (s.newFrame (g.rankOf i) 7 3 (g.crc.toNat + b * 2 ^ 32) p.1 step.toNat p.2)) s) s

/-- R415: the bursts' results come back from their ports to the Consort engine over the Spine (R27). -/
def State.crossResults (s : State) (l : LayerLayout) (ps : List PortBurst) : State :=
  ps.foldl (fun s p => s.crossSpine (portDie (p.die, p.unit)) (.x, l.xdie) (16 * l.resBytes)) s

/-- R415: a bucket's results for the REDUCE of the owner itself, whose SUM they are written to already. -/
def State.ownResult (s : State) (g : Group) (j : Nat) (l : LayerLayout) (b : Nat) (head results : List Byte) : State :=
  match s.reduces.find? fun op => !op.stats && op.group == g.num && op.layerPos == j && op.ended.isNone && !op.arrived.contains b with
  | none => s
  | some op => s.modRunning op.work.uid fun op =>
      let op := op.header head
      { op with
          nanResult := stop32 (op.nanResult + nanResults l results), arrived := insertNat b op.arrived
          wrote := if field (get16 head 6) 3 2 != 0 then op.wrote else op.wrote + 1 }

/-- R415 to R420: the bucket's bursts are all written, or it is ABORTED. -/
def State.bucketDone (s : State) (g : Group) (j : Nat) (l : LayerLayout) (m b : Nat) (r : Summed) (ps : List PortBurst) : State :=
  let o := Group.own? s g b
  let step := ((ps.flatMap fun p => p.got).head?.map fun c => c.step).getD 0#32
  let off := field r.flags 3 2 != 0
  let s := if off then s.forgetSpan (l.sumVa m) (l.elementsIn m * l.resBytes) else s.crossResults l ps
  let f := s.fresh
  -- a NaN that no contribution brought (∞ - ∞ in the sum) has no source: a free value
  let nan := r.nan.map fun n => (o.rounds, n.1, n.2.getD (f.1.toNat % 4096), step)
  let s := (if (r.nan.any fun n => n.2.isNone) then f.2 else s).setOwn
    { o with rounds := o.rounds + 1, aborted := false, written := [], nans := o.nans ++ nan.toList }
  let s := { s with coll := { s.coll with
    portBursts := s.coll.portBursts.filter fun p => !(p.group == g.num && p.round == o.rounds && p.bucket == b) } }
  let s := s.nanRecords g j false
  let head := resultHeader b l.layer r.flags r.sat r.flush
  (s.spreadResult l.xdie g b step (head ++ r.bytes)).ownResult g j l b head r.bytes

/-- R415: writes bursts of a complete bucket that are not yet written. -/
def State.writeBursts (g : Group) (l : LayerLayout) (m b : Nat) : List PortBurst → State → State
  | [], s => s
  | p :: ps, s =>
    let o := Group.own? s g b
    if o.aborted || o.written.contains p.burst || p.suspended.isSome then State.writeBursts g l m b ps s
    else
      let r := s.burstWrite g l m p
      let o := { o with aborted := r.1.2, written := if r.1.1.isNone then insertNat p.burst o.written else o.written }
      State.writeBursts g l m b ps ((r.2.setPortBurst { p with suspended := r.1.1 }).setOwn o)

/-- R415: goes on with a round of a bucket whose bursts may all be complete. -/
def State.settleRound (s : State) (g : Group) (b : Nat) : State :=
  match g.find b with
  | none => s
  | some (j, l, m) =>
    let n := l.burstsIn m
    let ps := (List.range n).filterMap (s.portBurst? g.num (Group.own? s g b).rounds b)
    if ps.length != n || !ps.all fun p => p.got.length == g.size then s
    else
      let r := sumBucket g l m (Group.own? s g b).aborted ps
      if bitAt r.flags 2 then s.bucketDone g j l m b r ps
      else
        let s := State.writeBursts g l m b ps s
        let o := Group.own? s g b
        if o.aborted then s.bucketDone g j l m b (sumBucket g l m true ps) ps
        else if o.written.length == n then s.bucketDone g j l m b r ps
        else s

/-- Rounds of a bucket may be complete behind one that a fault held. -/
def State.settleRounds (g : Group) (b : Nat) : Nat → State → State
  | 0, s => s
  | n + 1, s =>
    let t := s.settleRound g b
    if (Group.own? t g b).rounds == (Group.own? s g b).rounds then t else State.settleRounds g b n t

def State.settleBucket (s : State) (g : Group) (b : Nat) : State := State.settleRounds g b (s.coll.portBursts.length + 1) s

/-! ## ACCUMULATE_BURST and BURST_REOFFER -/

/-- R407: the bytes of a bucket, by its header. -/
def InBucket.size (b : InBucket) : Nat := 32 + 40 * get16 b.bytes 0x18 + 36 * get16 b.bytes 0x1A

/-- R476: bytes granted when burst u, of so many, has been admitted: a block's 40 with its last burst, the rest with the bucket's. -/
def InBucket.granted (b : InBucket) (bursts u : Nat) : Nat :=
  let lastOfBlock := (u + 1) % 16 == 0 || u + 1 == bursts
  let block (k : Nat) : Nat := if 32 + 40 * (k + 1) ≤ b.bytes.length then 40 else 0
  let blocks := if bitAt (get32 b.bytes 0x1C) 0 then 0 else ceilDiv bursts 16
  if u + 1 == bursts then (if blocks == 0 then b.size else b.size - 40 * (blocks - 1))
  else if lastOfBlock && blocks != 0 then block (u / 16)
  else 0

/-- R412, R413, R417: offers the next burst of a source's first bucket to its port. -/
def State.offerBurst (s : State) (x group source : Nat) (again : Bool) : State :=
  match s.group? group with
  | none => s
  | some g =>
    if g.failed || g.size ≤ source || s.coll.refused.contains (group, source) != again then s
    else
      match s.coll.inbound.find? fun b => b.crc == g.crc && b.src == g.rankOf source with
      | none => s
      | some b =>
        match g.find b.bucket with
        | none => s
        | some (_, l, m) =>
          let u := b.admitted
          let n := l.burstsIn m
          if l.xdie != x || b.bucket % g.size != g.me then s
          else
            match b.contribution g source (l.blocksIn m) u with
            | none => s
            | some c =>
              let port := s.portOf l m u
              -- a source's sums of a burst come in order: this is the first round that it has not yet contributed to
              let round := (Group.own? s g b.bucket).rounds + (s.coll.portBursts.filter fun p =>
                p.is group p.round b.bucket u && p.got.any fun q => q.source == source).length
              let p := (s.portBurst? group round b.bucket u).getD ⟨port.1, port.2, group, round, b.bucket, u, [], none⟩
              if !s.admits g p c then
                { s with coll := { s.coll with
                    refused := if again then s.coll.refused else s.coll.refused ++ [(group, source)] } }
              else
                -- R421: the port translates the burst's SUM bytes; a fault suspends the burst
                let bytes := min 16 (l.elementsIn m - 16 * u) * l.resBytes
                let sus := if c.aborted || p.suspended.isSome then p.suspended
                  else
                    (match s.translateSpan .device .atomic (l.burstVa m u) bytes with
                    | .error (k, va) => if suspends k then some (suspension k .atomic va) else none
                    | .ok _ => none)
                let s := (s.crossSpine (.x, x) (portDie (p.die, p.unit)) 8).setPortBurst { p with got := p.got ++ [c], suspended := sus }
                let s := { s with coll := { s.coll with
                  refused := s.coll.refused.filter fun r => r != (group, source)
                  inbound := if u + 1 == n then s.coll.inbound.erase b
                    else updIf (fun d => d == b) (fun d => { d with admitted := u + 1 }) s.coll.inbound } }
                ((s.grant x g source (b.granted n u)).settleBucket g b.bucket).collect

/-- R409 to R413. -/
def execAccumulateBurst (xdie group source : Nat) (s : State) : Host.Outcome State Fault Refusal := s.after <|
  .next (s.offerBurst xdie group source false)

/-- R413: a refused burst is offered again. -/
def execBurstReoffer (xdie group source : Nat) (s : State) : Host.Outcome State Fault Refusal := s.after <|
  .next (s.offerBurst xdie group source true)

/-! ## Group timeout (R424) -/

/-- R424: a REDUCE of the group has left its queue, or a burst of it waits for contributions. -/
def State.groupWaits (s : State) (g : Group) : Bool :=
  (s.coll.portBursts.any fun p => p.group == g.num && p.got.length < g.size)
    || s.consorts.any fun c => c.running.any fun op => op.group == g.num

/-- R424: a REDUCE of the group ends with COLLECTIVE_TIMEOUT. -/
def ConsortEngine.timeOut (num : Nat) (c : ConsortEngine) : ConsortEngine :=
  let late (op : ReduceOp) : ReduceOp := { op with suspended := none, ended := some ⟨0x0141, 0⟩ }
  let queued := (c.queue.filter fun w => reducesGroup num w.desc).map newReduce
  { c with
    queue := c.queue.filter fun w => !reducesGroup num w.desc
    active := c.active.filter fun op => op.group != num
    running := updIf (fun op => op.group == num) late c.running ++ (c.active.toList.filter fun op => op.group == num).map late
      ++ queued.map late }

/-- R424: the group becomes FAILED. -/
def execGroupTimeout (group : Nat) (s : State) : Host.Outcome State Fault Refusal := s.after <|
  match s.group? group with
  | none => .next s
  | some g =>
    if g.timeoutMs == 0 || g.failed || !s.groupWaits g then .next s
    else
      let s := (s.nanFlush g).modGroup group fun g => { g with failed := true }
      .next ({ s with consorts := s.consorts.map (ConsortEngine.timeOut group) }).endReduces

end Sys2Proof.Machine
end

