-- ==== Sys2Proof/Machine/Counters.lean ====
section
/-! DEFINITION. The Ledger's and the counters' commands (R546 to R556), fault injection and debug mode (R480, R553, R557), rings without work
(R104, R105), and what the hardware reports by itself: hot stacks (R395) and Spine links (R545). -/

namespace Sys2Proof.Machine

/-! ## Rings that carry no command (R104, R105, R111) -/

/-- R104: a ring whose request has been answered. -/
def execCarrelEmptyRing (carrel : Nat) (s : State) : Host.Outcome State Fault Refusal := s.after <|
  match s.carrel? carrel with
  | none => .next s
  | some c =>
    if !s.bar0.pend.getLsbD carrel || !s.takesRings || c.reqSeq != c.rspSeq then .next s
    else
      let s := s.clearPend carrel
      .next { s with host := { s.host with emptyRing := bump s.host.emptyRing 1 } }

/-- R111, R112: an opcode is unknown, or not taken in this carrel. -/
def strange (k op : Nat) : Bool :=
  match opRow? op with
  | none => true
  | some r => r.only0 && 0 < k

def execBadOpcode (carrel : Nat) (s : State) : Host.Outcome State Fault Refusal := s.after <|
  match s.carrel? carrel with
  | none => .next s
  | some c =>
    if strange carrel c.opcode then takeRing carrel c.opcode (fun _ s => (ans stBadOpcode, s)) s else .next s

/-! ## READ_LEDGER (R548) -/

def recordNumber (r : List Word32) : Nat := (r.getD 0 0#32).toNat

def ledgerBytes (r : List Word32) : List Byte := r.flatMap fun w => leBytes 4 w.toNat

/-- R548. -/
def readLedgerBody (pl : List Byte) (s : State) : Answer × State :=
  let start := get32 pl 0
  let got := (s.ledger.records.filter fun r => start ≤ recordNumber r).take 15
  let oldest := match s.ledger.records.head? with
    | some r => recordNumber r
    | none => 0
  let next := match got.getLast? with
    | some r => recordNumber r + 1
    | none => start
  let gap := start != 0 && !got.isEmpty && max start s.ledger.first < oldest
  (ansOk (leBytes 4 next ++ leBytes 4 (got.length + bit gap * 2 ^ 31) ++ got.flatMap ledgerBytes),
    { s with ledger := { s.ledger with returned := (got.map recordNumber).foldl (fun l n => insertNat n l) s.ledger.returned } })

def execReadLedger (s : State) : Host.Outcome State Fault Refusal := s.after <| takeRing 0 0x0090 readLedgerBody s

/-! ## CLEAR_COUNTERS (R556) -/

/-- R510: the counters of a die; TEMP_PEAK_C takes the current reading. -/
def DiePower.clear (d : DiePower) : DiePower :=
  { d with
    levelNs := List.replicate 6 0#64
    bellowsNs := 0#64
    skipped := 0#64
    gatedNs := 0#64
    wakes := 0#64
    peakC := d.tempC
    sramCe := 0#64
    sramUe := 0#64
    parity := 0#64
    tlbRefetch := 0#64
    injected := 0#64 }

def Cluster.clear (c : Cluster) : Cluster :=
  { c with matrixOps := 0#64, vectorOps := 0#64, preemptions := 0#64, spills := 0#64, suspensions := 0#64, walks := 0#64 }

def SpineLink.clear (l : SpineLink) : SpineLink :=
  { l with flitsAb := 0#64, flitsBa := 0#64, replays := 0#64, retrains := 0#64, injected := 0#64 }

/-- R559: the die kind of a SCOPE. -/
def dieKindOf (n : Nat) : DieKind := if n == 0 then .c else if n == 1 then .x else .d

/-- R556: clears one block, values apart. -/
def State.clearBlock (s : State) (group scope : Nat) : State :=
  if group == 0x0001 then { s with host := ⟨0#64, 0#64, 0#64, 0#64, 0#64, 0#64, 0#64⟩ }
  else if group == 0x0002 then { s with ww := { s.ww with unreachable := 0#64, timeouts := 0#64, late := 0#64 } }
  else if group == 0x0003 then
    { s with power := { s.power with energyMj := 0#64, emPower := 0#64, emDie := 0#64, emStack := 0#64, emVin := 0#64 } }
  else if group == 0x0010 then s.modDie (dieKindOf (scope / 65536)) (scope % 65536) DiePower.clear
  else if group == 0x0011 then s.modCluster (clusterOf scope) Cluster.clear
  else if group == 0x0020 then
    s.modStack (if scope / 65536 == 0 then .near else .dep) (scope % 65536) fun x => { x with counters := StackCounters.zero }
  else if group == 0x0030 then s.modPort (scope % 65536) fun p => { p with counters := PortCounters.zero }
  else { s with spine := s.spine.modify scope SpineLink.clear }

/-- R556. -/
def clearCountersBody (pl : List Byte) (s : State) : Answer × State :=
  let scope := get32 pl 0
  let group := get16 pl 4
  let kind := get8 pl 6
  let hit := s.counterBlocks.filter fun b =>
    b.scopeKind == kind && (group == 0xFFFF || b.group == group) && (scope == 0xFFFFFFFF || b.scope == scope)
  if hit.isEmpty then (ansField 0, s) else (ansOk [], hit.foldl (fun s b => s.clearBlock b.group b.scope) s)

def execClearCounters (carrel : Nat) (s : State) : Host.Outcome State Fault Refusal := s.after <|
  takeRing carrel 0x0091 clearCountersBody s

/-! ## INJECT (R480, R553) -/

/-- R480, R553: how many units a TARGET_KIND has. -/
def injectUnits (p : Part) (kind : Nat) : Nat :=
  if kind == 1 then 4 * p.x
  else if kind == 2 then p.n
  else if kind == 3 then p.d
  else if kind == 4 then p.links
  else 16 * p.c

/-- R480: the first bad field. -/
def injectBad (p : Part) (pl : List Byte) : Option Nat :=
  let kind := get8 pl 0x0E
  let known := 1 ≤ kind && kind ≤ 5
  firstBad
    [(0x08, 0x80000000 < get32 pl 0x08), (0x0C, known && injectUnits p kind ≤ get16 pl 0x0C), (0x0E, !known),
     (0x0F, (if kind == 1 then 4 else 2) < get8 pl 0x0F)]

/-- R480, R542: INJECT. -/
def injectBody (pl : List Byte) (s : State) : Answer × State :=
  match injectBad s.fuses.part pl with
  | some f => (ansField f, s)
  | none =>
    if s.bar0.lock.getLsbD 3 then (ans stLocked, s)
    else
      let kind := get8 pl 0x0E
      let unit := get16 pl 0x0C
      let rate := get32 pl 0x08
      let mode := get8 pl 0x0F
      let others := s.injections.filter fun i => !(i.kind == kind && i.unit == unit)
      let s := if kind == 4 then { s with spine := s.spine.modify unit fun l => { l with sent := 0 } } else s
      if mode == 0 || rate == 0 then (ansOk [], { s with injections := others })
      else
        (ansOk [], { s with
          injections := others ++ [⟨kind, unit, BitVec.ofNat 64 (get64 pl 0), BitVec.ofNat 32 rate, mode, 0⟩]
          fw := { s.fw with injectEver := true } })

/-- The TARGET_KIND of the request that waits in carrel 0. -/
def State.injectKind (s : State) : Nat :=
  match s.carrel? 0 with
  | some c => get8 (c.requestBytes 0x5E 1) 0
  | none => 0

def execInjectWindway (s : State) : Host.Outcome State Fault Refusal := s.after <|
  if 2 ≤ s.injectKind && s.injectKind ≤ 5 then .next s else takeRing 0 0x0070 injectBody s

def execInjectNearEcc (s : State) : Host.Outcome State Fault Refusal := s.after <|
  if s.injectKind == 2 then takeRing 0 0x0070 injectBody s else .next s

def execInjectDepositoryEcc (s : State) : Host.Outcome State Fault Refusal := s.after <|
  if s.injectKind == 3 then takeRing 0 0x0070 injectBody s else .next s

def execInjectSpine (s : State) : Host.Outcome State Fault Refusal := s.after <|
  if s.injectKind == 4 then takeRing 0 0x0070 injectBody s else .next s

def execInjectSram (s : State) : Host.Outcome State Fault Refusal := s.after <|
  if s.injectKind == 5 then takeRing 0 0x0070 injectBody s else .next s

/-! ## Debug mode (R557) -/

def setDebugBody (pl : List Byte) (s : State) : Answer × State :=
  let on := get8 pl 0
  if 1 < on then (ansField 0, s)
  else if s.bar0.lock.getLsbD 2 then (ans stLocked, s)
  else (ansOk [], { s with fw := { s.fw with debugOn := on == 1, debugEver := s.fw.debugEver || on == 1 } })

def execSetDebug (s : State) : Host.Outcome State Fault Refusal := s.after <| takeRing 0 0x0078 setDebugBody s

/-! ## Hot stacks (R395) -/

/-- R395: a count is hot: more than 3 times the mean, more than a quarter of the peak. -/
def hotCount (tier : Space) (bursts : List Nat) (n : Nat) : Bool :=
  3 * bursts.foldl (· + ·) 0 < n * bursts.length
    && (match tier with | .near => 2666750 | _ => 2133250) < 4 * n

/-- The samples of one 64 KiB block. -/
def samplesIn (samples : List Nat) (block : Nat) : Nat := (samples.filter fun o => o / 65536 == block).length

/-- R395: the blocks that appear most often among samples, and how often. -/
def topBlocks (samples : List Nat) : List Nat × Nat :=
  let top := (samples.map fun o => samplesIn samples (o / 65536)).foldl max 0
  (((samples.map fun o => o / 65536).filter fun b => samplesIn samples b == top).eraseDups, top)

/-- R395, R550: a HOT_STACK or HOT_STACK_END record. Of several blocks that tie it names any: the tie-th. -/
def State.hotRecord (s : State) (tier : Space) (stack : Nat) (x : Stack) (cls tie : Nat) : State :=
  let tb := topBlocks x.samples
  let block := tb.1.getD (tie % max 1 tb.1.length) 0
  let own := (x.window.map fun w => w.1).foldl (· + ·) 0
  let all := (x.window.map fun w => w.2).foldl (· + ·) 0
  let share := min 0xFFFF (own * 65536 / max 1 all)
  s.log { cls := cls, severity := 0, siteKind := tier.siteKind, site := stack, unit := 0xFFFF, injected := false,
            payload := [tier.bit + stack % 256 * 2 ^ 8 + share * 2 ^ 16, block * 65536 % 2 ^ 32,
              block * 65536 / 2 ^ 32 % 2 ^ 16 + tb.2 * 2 ^ 16, x.hotMs / 1000] }

/-- R395, R396: a window passes over one stack, whose count firmware has read. HOLD_NS is as the controller has measured it (log 11). -/
def Stack.pass (x : Stack) (own all : Nat) (hot : Bool) (holdNs : Word64) : Stack :=
  let x := x.count fun c => { c with hotWindows := bump c.hotWindows (bit hot), holdNs := holdNs }
  let run := if hot then x.hotRun + 1 else 0
  { x with
    hotRun := run
    coldRun := if hot then 0 else x.coldRun + 1
    hotMs := if x.hot then x.hotMs + 1 else run
    bursts := 0
    window := ((own, all) :: x.window).take 10000 }

/-- R395: what firmware reads of one stack in a window, and the record it may write. -/
def State.hotPass (s : State) (tier : Space) (bursts : List Nat) (holdNs : List Word64) (tie k : Nat) : State :=
  match s.stack? tier k with
  | none => s
  | some x0 =>
    let n := bursts.getD k 0
    let x := x0.pass n (bursts.foldl (· + ·) 0) (hotCount tier bursts n) (holdNs.getD k x0.counters.holdNs)
    let s := s.modStack tier k fun _ => x
    if !x.hot && x.hotRun == 10000 then
      (s.hotRecord tier k x 0x0030 tie).modStack tier k fun x => { x with hot := true }
    else if x.hot && x.coldRun == 10000 then
      (s.hotRecord tier k x 0x0031 tie).modStack tier k fun x => { x with hot := false, hotRun := 0 }
    else if x.hot && 10000 < x.hotMs && (x.hotMs - 10000) % 3600000 == 0 then s.hotRecord tier k x 0x0030 tie
    else s

/-- R395: the burst counts of a tier's stacks, in order of stack. -/
def State.burstCounts (s : State) (tier : Space) : List Nat :=
  (List.range (s.fuses.part.stacksOf tier)).map fun k => (s.stack? tier k).elim 0 fun x => x.bursts

/-- R395: HOT_STACK_WINDOW: firmware reads the counts of a tier's stacks. -/
def execHotStackWindow (tier : Space) (holdNs : List Word64) (tie : Nat) (s : State) : Host.Outcome State Fault Refusal := s.after <|
  if !s.fwRuns then .next s
  else
    let bursts := s.burstCounts tier
    .next ((List.range bursts.length).foldl (fun s k => s.hotPass tier bursts holdNs tie k) s)

/-! ## Spine links (R545) -/

def State.modSpine (s : State) (link : Nat) (f : SpineLink → SpineLink) : State := { s with spine := s.spine.modify link f }

/-- R545: a flit is replayed because of an error of use; those that injection replays are counted as they cross the link (R553). -/
def execSpineFlitReplay (link dir : Nat) (s : State) : Host.Outcome State Fault Refusal := s.after <|
  if s.spine.length ≤ link || 2 ≤ dir || s.catalogue.stateCode == 0 then .next s
  else .next (s.modSpine link fun l => { l with replays := bump l.replays 1 })

/-- R545, R551: a link retires a lane onto a spare, or goes on without it. Spare lanes have the numbers LANES to LANES + SPARE_LANES - 1
(DESIGN CHOICE, log 59). -/
def execSpineLaneRetire (link dir lane : Nat) (s : State) : Host.Outcome State Fault Refusal := s.after <|
  match s.fuses.part.linkRows[link]? with
  | none => .next s
  | some row =>
    if !s.fwRuns || 2 ≤ dir || row.lanes + s.fuses.part.spareLanes ≤ lane || s.phys.lanesNow.contains (link, dir, lane) then .next s
    else
      let now := s.phys.lanesNow ++ [(link, dir, lane)]
      let beyond := (s.fuses.part.laneUse s.phys.lanesNow link dir row.lanes).2 < (s.fuses.part.laneUse now link dir row.lanes).2
      let s := { s with phys := { s.phys with lanesNow := now } }
      let s := s.modSpine link fun l => { l with retrains := bump l.retrains 1, lost := l.lost + bit beyond }
      .next (s.log { cls := 0x0012, severity := 1, siteKind := 5, site := link, unit := lane, injected := false,
                     payload := [dir] })

end Sys2Proof.Machine
end

