-- ==== Sys2Proof/Machine/Dma.lean ====
section
/-! DEFINITION. The DMA engines (R80 to R83, R373 to R376). -/

namespace Sys2Proof.Machine

/-- REQ_KIND of a DMA engine (R370), of X-die x. -/
def dmaReader (x : Nat) : Reader := ⟨5, none, some (.x, x)⟩

/-- R374: DMA_COPY. -/
def dmaCopyBody (carrel : Nat) (pl : List Byte) (s : State) : Answer × State :=
  let len := get64 pl 16
  let prog := get64 pl 24
  if len == 0 || 2 ^ 40 < len then (ansField 16, s)
  else if prog % 32 != 0 then (ansField 24, s)
  else
    match s.queue? (get16 pl 32) with
    | none => (ansField 32, s)
    | some q =>
      let t := s.newTicket carrel
      (ansAccepted t.1, t.2.addItem q.num carrel t.1 (s.tagOf carrel) 0x0035 (.dma (get64 pl 0) (get64 pl 8) len prog))

def execDmaCopy (carrel : Nat) (s : State) : Host.Outcome State Fault Refusal := s.after <|
  takeRing carrel 0x0035 (dmaCopyBody carrel) s

/-! ## Jobs -/

def State.job? (s : State) (x e : Nat) : Option DmaJob := if e < 4 then (s.dma[4 * x + e]?).join else none

def State.setJob (s : State) (x e : Nat) (j : Option DmaJob) : State :=
  { s with dma := s.dma.modify (4 * x + e) fun _ => j }

/-- The job cannot go on by itself. -/
def DmaJob.stopped (j : DmaJob) : Bool := j.waiting.isSome || j.held || j.suspended.isSome || j.ended.isSome

/-- R376: the 32 bytes of the progress record. -/
def DmaJob.record (j : DmaJob) (st : Nat) (faultId : Word32) : List Byte :=
  leBytes 4 j.next ++ leBytes 4 st ++ leBytes 4 faultId.toNat ++ zeros 4 ++ leBytes 8 j.bytesDone ++ zeros 8

/-- R376: writes the progress record, where there is one. -/
def State.progress (s : State) (x e : Nat) (j : DmaJob) (st : Nat) (faultId : Word32) : State :=
  if j.progress == 0 then s
  else (s.writeRecord (dmaReader x) (.dma x e) j.progress (j.record st faultId)).2

/-- R80: the progress record lies in host memory and may not be written now. -/
def State.progressHeld (s : State) (j : DmaJob) : Bool := s.recordHeld j.progress 32

/-- R376: the record of a suspension whose fault has an ID. In host memory it waits until mastering is allowed (R80). -/
def State.progressStopped (s : State) (x e : Nat) (id : Word32) : State :=
  match s.job? x e with
  | none => s
  | some j => if s.progressHeld j then s.setJob x e (some { j with owed := true }) else s.progress x e j 1 id

/-- R367, R373: the job meets a fault before any byte of its granule is written. -/
def State.dmaFault (s : State) (j : DmaJob) (cls : Nat) (acc : Acc) (va : Nat) : DmaJob × State :=
  if suspends cls then ({ j with suspended := some (suspension cls acc va) }, s)
  else
    let e := s.faultEnding cls va
    ({ j with ended := some e.1 }, e.2)

/-! ## One granule -/

/-- A target some bytes further on. -/
def Target.plus (t : Target) (n : Nat) : Target :=
  match t with
  | .mem sp o => .mem sp (o + n)
  | .host a => .host (a + n)
  | .remote k a => .remote k (a + n)
  | .counter o => .counter (o + n)
  | .flow o => .flow (o + n)

/-- The target at an offset of translated pieces, and the bytes it runs on for. -/
def pieceAt : List (Target × Nat) → Nat → Option (Target × Nat)
  | [], _ => none
  | (t, n) :: ts, off => if off < n then some (t.plus off, n - off) else pieceAt ts (off - n)

/-- R81: bytes of one read request from a host address: at most Max_Read_Request_Size, within a 4 KiB block. -/
def State.readLimit (s : State) (a : Nat) : Nat := min (128 * 2 ^ s.cfg.maxReadRequest) (4096 - a % 4096)

/-- R81: as many reads of host memory are outstanding as the tags allow. -/
def State.readsFull (s : State) : Bool := (if s.cfg.tenBitTag then 768 else 256) ≤ s.hostReads.length

/-- R81: issues a read of host memory, for an access at a virtual address. -/
def State.hostAsk (s : State) (va a n : Nat) (owner : Requester) : Nat × State :=
  let u := s.newUid
  let s := u.2.crossOut owner 0 0
  (2 * u.1, ({ s with hostReads := s.hostReads ++ [HostRead.mk (2 * u.1) va a n owner] }).send (.hostRead (2 * u.1) a n))

/-- Gathers the granule's source bytes in order, up to a read that has to wait. R80: no host read while mastering is not allowed. -/
def State.dmaGather (s : State) (x e : Nat) (va : Nat) (ts : List (Target × Nat)) : Nat → DmaJob → DmaJob × State
  | 0, j => (j, s)
  | fuel + 1, j =>
    let at_ := va + j.gathered.length
    match pieceAt ts j.gathered.length with
    | none => (j, s)
    | some (t, n) =>
      match t with
      | .host a =>
        if s.readsFull || !s.canMaster then ({ j with held := true }, s)
        else
          let u := s.hostAsk at_ a (min n (s.readLimit a)) (.dma x e)
          ({ j with waiting := some u.1 }, u.2)
      | .remote k a =>
        let n := min n 512
        (match s.ask 1 k a n n [] (.dma x e) at_ with
        | (.now b, s') => s'.dmaGather x e va ts fuel { j with gathered := j.gathered ++ b.take n }
        | (.later tag, s') => ({ j with waiting := some tag }, s')
        | (.failed r, s') => ({ j with ended := some ⟨stDeviceError, r % 65536⟩ }, s')
        | (.busy, s') => ({ j with held := true }, s'))
      | t =>
        match s.readPieces (dmaReader x) [(t, n)] with
        | (.bytes b, s') => s'.dmaGather x e va ts fuel { j with gathered := j.gathered ++ b }
        | (.dead r, s') => ({ j with ended := some ⟨stDeviceError, r % 65536⟩ }, s')
        | (_, s') => (j, s')

/-- Writes the gathered bytes to the granule's destination in order, up to a remote write that has to be acknowledged. R82: the only writes
that may be relaxed. -/
def State.dmaScatter (s : State) (x e : Nat) (va : Nat) (ts : List (Target × Nat)) : Nat → DmaJob → DmaJob × State
  | 0, j => (j, s)
  | fuel + 1, j =>
    match pieceAt ts j.written with
    | none => (j, s)
    | some (t, n) =>
      match t with
      | .host a =>
        if !s.canMaster then ({ j with held := true }, s)
        else
          ((s.crossOut (.dma x e) 0 n).sendWrites s.cfg.relaxedOrdering (n + 1) a ((j.gathered.drop j.written).take n)).dmaScatter x e va ts
            fuel { j with written := j.written + n }
      | .remote k a =>
        let n := min n 512
        (match s.ask 2 k a n n ((j.gathered.drop j.written).take n) (.dma x e) (va + j.written) with
        | (.now _, s') => s'.dmaScatter x e va ts fuel { j with written := j.written + n }
        | (.later tag, s') => ({ j with waiting := some tag }, s')
        | (.failed r, s') => ({ j with ended := some ⟨stDeviceError, r % 65536⟩ }, s')
        | (.busy, s') => ({ j with held := true }, s'))
      | t =>
        (s.writePieces (dmaReader x) [(t, n)] ((j.gathered.drop j.written).take n)).dmaScatter x e va ts fuel
          { j with written := j.written + n }

/-- R375: one granule, both of whose ranges have been translated. -/
def State.dmaMove (s : State) (x e : Nat) (route : List (Target × Nat) × List (Target × Nat)) (n : Nat) (j : DmaJob) : DmaJob × State :=
  let g := j.granule j.next
  let a := s.dmaGather x e (j.src + g.1) route.1 (n + 1) j
  if a.1.stopped then a else a.2.dmaScatter x e (j.dst + g.1) route.2 (n + 1) a.1

/-- R375: source and destination of the granule in progress, translated once, before its first byte moves; or the fault. -/
def State.dmaRoute (s : State) (j : DmaJob) : Except (Acc × Nat × Nat) (List (Target × Nat) × List (Target × Nat)) :=
  match j.route with
  | some r => .ok r
  | none =>
    let g := j.granule j.next
    match s.translateSpan .device .read (j.src + g.1) g.2, s.translateSpan .device .write (j.dst + g.1) g.2 with
    | .error (c, a), _ => .error (.read, c, a)
    | .ok _, .error (c, a) => .error (.write, c, a)
    | .ok src, .ok dst => .ok (src, dst)

/-- R375, R376: copies granules in order until the job stops or ends. R80: a granule that touches host memory begins only while mastering is
allowed. -/
def State.dmaRun (x e : Nat) : Nat → State → State
  | 0, s => s
  | fuel + 1, s =>
    match s.job? x e with
    | none => s
    | some j =>
      if j.stopped || !s.enginesRun then s
      else if j.granules ≤ j.next then s.setJob x e (some { j with ended := some ⟨stOk, 0⟩ })
      else
        match s.dmaRoute j with
        | .error (acc, c, a) =>
          let f := s.dmaFault j c acc a
          f.2.setJob x e (some f.1)
        | .ok r =>
          let n := (j.granule j.next).2
          let due := (j.next + 1) % 256 == 0
          if (due && s.progressHeld j) || (j.route.isNone && (touchesHost r.1 || touchesHost r.2) && !s.canMaster) then
            s.setJob x e (some { j with held := true })
          else
            let m := s.dmaMove x e r n { j with route := some r }
            if m.1.stopped then m.2.setJob x e (some m.1)
            else
              let j := { m.1 with next := j.next + 1, bytesDone := j.bytesDone + n, route := none, gathered := [], written := 0 }
              let s := m.2.setJob x e (some j)
              let s := if due then s.progress x e j 0 0#32 else s
              s.dmaRun x e fuel

/-- Runs the job of an engine as far as it goes. -/
def State.dmaGo (s : State) (x e : Nat) : State :=
  match s.job? x e with
  | none => s
  | some j => s.dmaRun x e (j.granules + 2)

/-- R374: gives the DMA item at the head of a queue to a free engine. -/
def execDmaStart (queue xdie engine : Nat) (s : State) : Host.Outcome State Fault Refusal := s.after <|
  match s.offered queue with
  | none => .next s
  | some (_, it) =>
    match it.work with
    | .desc _ => .next s
    | .failed _ _ => .next s
    | .dma src dst len prog =>
      if s.fuses.part.x ≤ xdie || 4 ≤ engine || (s.job? xdie engine).isSome then .next s
      else if src < dst + len && dst < src + len then .fault .dmaOverlap
      else
        let s := (s.startItem queue it.uid).powerUp (.engines xdie)
        let j : DmaJob := ⟨it.uid, queue, src, dst, len, prog, 0, 0, none, [], 0, none, false, none, false, none⟩
        -- R376: the record's page is translated before the first granule
        match (if prog == 0 then .ok [] else s.translateSpan .device .write prog 32) with
        | .error (c, a) =>
          let f := s.dmaFault j c .write a
          .next (f.2.setJob xdie engine (some f.1))
        | .ok _ => .next ((s.setJob xdie engine (some j)).dmaGo xdie engine)

/-- R376: the final record, then the completion. -/
def execDmaEnd (xdie engine : Nat) (s : State) : Host.Outcome State Fault Refusal := s.after <|
  match s.job? xdie engine with
  | none => .next s
  | some j =>
    match j.ended with
    | none => .next s
    | some e =>
      if s.progressHeld j then .next s
      else
        let s := (s.setJob xdie engine none).progress xdie engine j (if e.status == stOk then 2 else 3) 0#32
        .next (s.endItem j.queue j.uid e.status e.detail (BitVec.ofNat 32 j.bytesDone) (BitVec.ofNat 32 (j.bytesDone / 2 ^ 32)))

/-- Data arrives for a job: source bytes, or the acknowledgement of a remote write. -/
def State.dmaArrive (s : State) (x e n : Nat) (data : List Byte) : State :=
  match s.job? x e with
  | none => s
  | some j =>
    let full := (j.granule j.next).2
    let j := if j.gathered.length < full then { j with gathered := j.gathered ++ padTo n data, waiting := none }
      else { j with written := j.written + n, waiting := none }
    (s.setJob x e (some j)).dmaGo x e

/-- A job ends where it stands. -/
def State.dmaStop (s : State) (x e status detail : Nat) : State :=
  match s.job? x e with
  | none => s
  | some j => s.setJob x e (some { j with waiting := none, held := false, suspended := none, owed := false, ended := some ⟨status, detail⟩ })

/-- R80, R81, R124: every job goes on from where it stands: granules held for mastering or for a tag are issued in order, and a copy that a
handover stopped resumes. -/
def State.dmaRelease (s : State) : State :=
  (List.range (4 * s.fuses.part.x)).foldl (fun s i =>
    match s.job? (i / 4) (i % 4) with
    | none => s
    | some j =>
      let s := if !j.owed || s.progressHeld j then s
        else (s.setJob (i / 4) (i % 4) (some { j with owed := false })).progress (i / 4) (i % 4) j 1
          ((j.suspended.bind fun y => y.faultId).getD 0#32)
      match s.job? (i / 4) (i % 4) with
      | none => s
      | some j => (s.setJob (i / 4) (i % 4) (some { j with held := false })).dmaGo (i / 4) (i % 4)) s

end Sys2Proof.Machine
end

