-- ==== Sys2Proof/Machine/Update.lean ====
section
/-! DEFINITION. Parameter update in memory (R430 to R455): SET_SCHEDULE, SET_FREEZE_MASK, the granules of an update, the layer sums and
their scalars, the end of an update. -/

namespace Sys2Proof.Machine

/-- R370: REQ_KIND of an update unit: die kind, die, unit; its accesses leave from its die (R430). -/
def updateReader (u : DieKind × Nat × Nat) : Reader := ⟨8, none, some (u.1, u.2.1)⟩

/-! ## LF32 operations (R438) -/

/-- One operation on LF32 words: the exact value rounded once to nearest. -/
def wMul (a b : Nat) : Nat := toLf32 (mulNum (lf32 a) (lf32 b)).1
def wAdd (a b : Nat) : Nat := toLf32 (addNum (lf32 a) (lf32 b)).1
def wFma (a b c : Nat) : Nat := toLf32 (addNum (mulNum (lf32 a) (lf32 b)).1 (lf32 c)).1
/-- -x is exact. -/
def wNeg (a : Nat) : Nat := toLf32 (lf32 a).negate

/-- IEEE division. -/
def divNum (a b : Num) : Num :=
  let neg := a.neg? != b.neg?
  if a.isNan || b.isNan || (a.isZero && b.isZero) || (a.isInf && b.isInf) then .nan
  else if a.isInf || b.isZero then .inf neg
  else if a.isZero || b.isInf then .zero neg
  else
    match a.rat none, b.rat none with
    | some x, some y => (numOfRat (x / y)).withSign neg
    | _, _ => .nan

def wDiv (a b : Nat) : Nat := toLf32 (divNum (lf32 a) (lf32 b))

/-- IEEE square root. -/
def wSqrt (a : Nat) : Nat :=
  match lf32 a with
  | .lin false m => toLf32 (numOfRat (sqrtRat m))
  | .lin true _ => lfNan fLF32
  | .inf true => lfNan fLF32
  | x => toLf32 x

/-- A positive number. -/
def wPos (a : Nat) : Bool := (Num.zero false).lt (lf32 a) && !(lf32 a).isNan

/-! ## The schedule entry (R433) -/

structure Schedule where
  rule    : Nat
  fmt     : Nat
  enable  : Bool
  rows    : Bool
  grain   : Nat
  stoch   : Bool
  shape   : Nat
  notify  : Bool
  shFmt   : Nat
  shadow  : Bool
  layer   : Nat
  group   : Nat
  cols    : Nat
  peak    : Nat
  low     : Nat
  warmup  : Nat
  decay   : Nat
  b1      : Nat
  b2      : Nat
  eps     : Nat
  lambda  : Nat
  param   : Nat
  state   : Nat
  factor  : Nat
  shVa    : Nat
  shScales : Nat
  status  : Nat
  done    : Nat
  seed    : Nat
  base    : Nat

def Schedule.of (d : List Byte) : Schedule :=
  let w := get32 d 0
  { rule := field w 2 0, fmt := field w 6 3, enable := bitAt w 7, rows := bitAt w 8, grain := field w 10 9, stoch := bitAt w 11,
    shape := field w 13 12, notify := bitAt w 14, shFmt := field w 18 15, shadow := bitAt w 19, layer := get16 d 4,
    group := field (get32 d 4) 19 16, cols := get32 d 0xC, peak := get32 d 0x10, low := get32 d 0x14, warmup := get32 d 0x18,
    decay := get32 d 0x1C, b1 := get32 d 0x20, b2 := get32 d 0x24, eps := get32 d 0x28, lambda := get32 d 0x2C,
    param := descAddr d 0x30, state := descAddr d 0x38, factor := descAddr d 0x40, shVa := descAddr d 0x48,
    shScales := descAddr d 0x50, status := descAddr d 0x58, done := descAddr d 0x60, seed := get64 d 0x68,
    base := get32 d 0x70 + get16 d 0x74 * 2 ^ 32 }

/-- B1 is not zero. -/
def Schedule.momentum (x : Schedule) : Bool := !(lf32 x.b1).isZero

/-- R440: bytes of state per element. -/
def Schedule.stateBytes (x : Schedule) : Nat :=
  match x.rule with
  | 0 => 4
  | 1 => 8
  | 2 => 8
  | 3 => if x.momentum then 4 else 0
  | _ => 0

/-- Rows are used by the entry. -/
def Schedule.usesRows (x : Schedule) : Bool := x.rows || x.grain == 1 || x.rule == 3

/-- R430: parameters in a granule. -/
def Schedule.perGranule (x : Schedule) : Nat := 32768 / fmtWidth x.fmt

/-- R430: granules of a layer of n elements. -/
def Schedule.granules (x : Schedule) (n : Nat) : Nat := ceilDiv n x.perGranule

/-- R436: bits of the freeze mask. -/
def Schedule.maskBits (x : Schedule) (n : Nat) : Nat :=
  match x.grain with
  | 0 => n
  | 1 => n / x.cols
  | _ => x.granules n

/-- R432: the arrays of an entry: the entry offset, the DETAIL of R452, address and bytes. -/
def Schedule.arrays (x : Schedule) (n : Nat) : List (Nat × Nat × Nat × Nat) :=
  [(0x30, 0, x.param, ceilDiv (n * fmtWidth x.fmt) 8)]
  ++ (if x.stateBytes == 0 then [] else [(0x38, 1, x.state, n * x.stateBytes)])
  ++ (if x.rule == 3 then [(0x40, 2, x.factor, 4 * (n / x.cols + x.cols))] else [])
  ++ (if x.shadow then [(0x48, 3, x.shVa, ceilDiv (n * fmtWidth x.shFmt) 8)] else [])
  ++ (if x.shadow && scalable x.shFmt then [(0x50, 4, x.shScales, ceilDiv n 32)] else [])

/-- The record of a layer in a group's layout. -/
def State.layoutRecord (s : State) (group layer : Nat) : Option (List Byte) :=
  (s.group? group).bind fun g => (g.layout.getD []).find? fun r => get16 r 0 == layer

def State.layoutOf (s : State) (group layer : Nat) : Option LayerLayout := (s.layoutRecord group layer).map LayerLayout.of

/-- The tier that an address leads to. -/
def State.tierAt (s : State) (va : Nat) : Option Space :=
  match s.lookup va with
  | some (.mem .near _, _) => some .near
  | some (.mem .dep _, _) => some .dep
  | _ => none

def isTier (sp : Space) : Bool := sp == .near || sp == .dep

/-- R434: the first failing field of an entry. -/
def State.scheduleBad (s : State) (d : List Byte) (layer : Nat) (l : LayerLayout) : Option Nat :=
  let x := Schedule.of d
  let n := l.elements
  let suits := if x.rule == 4 then x.fmt == fB1 || x.fmt == fT2 else x.fmt == fLF32 || x.fmt == fLF16 || x.fmt == fL16
  let word0 := 5 ≤ x.rule || !suits || (x.rows && !(x.rule == 0 || x.rule == 1 || x.rule == 4)) || x.grain == 3 || x.shape == 3
    || (x.shadow && (x.rule == 4 || !fmtOk x.shFmt)) || field (get32 d 0) 31 20 != 0
  let cols := x.cols == 0 || 2 ^ 24 < x.cols || (x.usesRows && n % x.cols != 0)
  let tier := s.tierAt x.param
  let inTier (sp : Space) : Bool := some sp == tier
  let sized := !word0 && !cols
  leastBad
    ([(0, word0), (4, x.layer != layer || field (get32 d 4) 31 20 != 0), (0xC, cols), (0x28, x.rule == 3 && !wPos x.eps),
      (0x30, x.param % 4096 != 0), (0x38, x.stateBytes != 0 && x.state % 64 != 0), (0x58, x.status % 32 != 0),
      (0x60, x.done != 0 && (x.done % 8 != 0 || !s.spanIn isTier .read x.done 8)),
      (0x74, get16 d 0x76 != 0), gapBad d 0x78 0x80,
      wideBad d 0x30, wideBad d 0x38, wideBad d 0x40, wideBad d 0x48, wideBad d 0x50, wideBad d 0x58, wideBad d 0x60]
     ++ if !sized then []
        else ((x.arrays n).map fun a => (a.1, !s.spanIn inTier .read a.2.2.1 a.2.2.2))
          ++ [(0x30, !s.spanIn inTier .read l.sum (n * l.resBytes))])

/-- R433, R434: SET_SCHEDULE. -/
def setScheduleBody (pl : List Byte) (s : State) : Answer × State :=
  let va := get64 pl 0
  let layer := get32 pl 8
  if 65536 ≤ layer then (ansField 8, s)
  else if s.updating layer then (ans stBusy, s)
  else if va == 0 then
    (ansOk [], { s with update := { s.update with
      schedule := s.update.schedule.filter fun e => e.layer != layer
      masks := s.update.masks.filter fun m => m.1 != layer } })
  else
    match s.commandRead va 128 with
    | (.error a, s) => (a, s)
    | (.ok d, s) =>
      match s.layoutOf (Schedule.of d).group layer with
      | none => (ans stBadState, s)
      | some l =>
        match s.scheduleBad d layer l with
        | some f => (ansField f, s)
        | none =>
          let others := s.update.schedule.filter fun e => e.layer != layer
          if 16384 ≤ others.length then (ans stNoResource, s)
          else
            (ansOk [], { s with update := { s.update with
              schedule := others ++ [⟨layer, d, BitVec.ofNat 32 (get32 d 8)⟩] } })

def execSetSchedule (carrel : Nat) (s : State) : Host.Outcome State Fault Refusal := s.after <| takeRing carrel 0x0058 setScheduleBody s

/-- R436: SET_FREEZE_MASK. -/
def setFreezeMaskBody (pl : List Byte) (s : State) : Answer × State :=
  let va := get64 pl 0
  let layer := get32 pl 8
  match s.schedule? layer with
  | none => (ans stBadState, s)
  | some e =>
    if s.updating layer then (ans stBusy, s)
    else
      let others := s.update.masks.filter fun m => m.1 != layer
      if va == 0 then (ansOk [], { s with update := { s.update with masks := others } })
      else
        let x := Schedule.of e.bytes
        let n := ((s.layoutOf x.group layer).map fun l => l.elements).getD 1
        if !s.spanIn isTier .read va (ceilDiv (x.maskBits n) 8) then (ansField 0, s)
        else (ansOk [], { s with update := { s.update with masks := others ++ [(layer, va)] } })

def execSetFreezeMask (carrel : Nat) (s : State) : Host.Outcome State Fault Refusal := s.after <| takeRing carrel 0x0059 setFreezeMaskBody s

/-! ## Scalars (R435) -/

/-- A number to a whole power. -/
def powNum (x : Num) (n : Nat) : Num :=
  match x with
  | .lin neg m => if n == 0 then .lin false 1 else .lin (neg && n % 2 == 1) (m ^ n)
  | .zero _ => if n == 0 then .lin false 1 else .zero false
  | .inf neg => if n == 0 then .lin false 1 else .inf (neg && n % 2 == 1)
  | y => y

/-- 1 - x, rounded once. -/
def oneMinus (x : Num) : Nat := toLf32 (addNum (.lin false 1) x.negate).1

/-- arctan(1/d) as an alternating sum of t/k, t the next power of 1/d, in fixed point. -/
def arctanFix (d : Nat) : Nat → Nat → Nat → Int
  | 0, _, _ => 0
  | n + 1, t, k => if t == 0 then 0 else ((t / k : Nat) : Int) - arctanFix d n (t / (d * d)) (k + 2)

/-- π in units of 2^-w, to 40·w of them (Machin). -/
def piUnits (w : Nat) : Nat := (16 * arctanFix 5 w (2 ^ w / 5) 1 - 4 * arctanFix 239 w (2 ^ w / 239) 1).toNat

/-- Σ ±x^2k/(2k)! in units of 2^-w: t is the term at k. -/
def cosFix (w x2 : Nat) : Nat → Nat → Nat → Int
  | 0, _, _ => 0
  | n + 1, t, k => if t == 0 then 0 else (t : Int) - cosFix w x2 n (t * x2 / 2 ^ w / ((k + 1) * (k + 2))) (k + 2)

/-- cos(π · k / n), for k ≤ n, in units of 2^-w, to 64·w of them. -/
def cosUnits (w k n : Nat) : Int :=
  let near := min k (n - k)
  let x := piUnits w * near / n
  let c := cosFix w (x * x / 2 ^ w) w (2 ^ w) 0
  if 2 * k ≤ n then c else -c

/-- cos(π · k / n), for k < n, where it is rational. -/
def cosExact (k n : Nat) : Option Rat :=
  if k == 0 then some 1
  else if 3 * k == n then some (mkRat 1 2)
  else if 2 * k == n then some 0
  else if 3 * k == 2 * n then some (-(mkRat 1 2))
  else none

/-- R435: a + b · (1 + cos(π · k / n)) / 2 rounded once to LF32, with an irrational cosine, and so never at a boundary: the bits of the cosine
are doubled until both ends of its interval round alike. -/
def cosineRate (a b : Rat) (k n : Nat) : Nat → Nat → Nat
  | fuel, w =>
    let c := cosUnits w k n
    let at_ (c : Int) : Nat := toLf32 (numOfRat (a + b * (1 + mkRat c (2 ^ w)) / 2))
    let lo := at_ (c - 64 * (w : Int))
    match fuel with
    | 0 => lo
    | f + 1 => if lo == at_ (c + 64 * (w : Int)) then lo else cosineRate a b k n f (2 * w)

/-- R435: lr at step s. -/
def Schedule.rate (x : Schedule) (s : Nat) : Nat :=
  let peak := lf32 x.peak
  let low := lf32 x.low
  let times (a : Num) (q : Rat) : Num := (mulNum a (numOfRat q)).1
  if s < x.warmup then toLf32 (times peak (mkRat (s + 1) x.warmup))
  else if x.shape == 0 then x.peak
  else if x.decay ≤ s - x.warmup then x.low
  else
    let k := s - x.warmup
    let along (a b : Num) (q : Rat) : Nat := toLf32 (addNum a (times (addNum b a.negate).1 q)).1
    if x.shape == 1 then along peak low (mkRat k x.decay)
    else
      match cosExact k x.decay, low.rat none, peak.rat none with
      | none, some a, some b => if a == b then x.low else cosineRate a (b - a) k x.decay 40 512
      | c, _, _ => along low peak ((1 + c.getD 0) / 2)

/-- The scalars of an update. -/
structure Scalars where
  c1  : Nat
  c2  : Nat
  bc1 : Nat
  bc2 : Nat
  lr  : Nat

def Schedule.scalars (x : Schedule) (s : Nat) : Scalars :=
  { c1 := oneMinus (lf32 x.b1), c2 := oneMinus (lf32 x.b2), bc1 := oneMinus (powNum (lf32 x.b1) (s + 1)),
    bc2 := oneMinus (powNum (lf32 x.b2) (s + 1)), lr := x.rate s }

/-! ## The rules (R441 to R444) -/

/-- An updated element: its index, gradient, parameter code and value, state words. -/
structure Elem where
  e    : Nat
  g    : Nat
  code : Nat
  w    : Nat
  st   : List Nat

/-- R441: m, v and u of ADAMW and LAMB, before the last line. -/
def adamStep (x : Schedule) (k : Scalars) (a : Elem) : Nat × Nat × Nat :=
  let m := wFma x.b1 (a.st.getD 0 0) (wMul k.c1 a.g)
  let v := wFma x.b2 (a.st.getD 1 0) (wMul k.c2 (wMul a.g a.g))
  let u := wDiv (wDiv m k.bc1) (wAdd (wSqrt (wDiv v k.bc2)) x.eps)
  (m, v, wFma x.lambda a.w u)

/-- R441 to R443: the new parameter and the new state of an element, where rows and columns of FACTORED are read by rc. -/
def ruleStep (x : Schedule) (k : Scalars) (scale : Nat) (rc : Nat × Nat) (a : Elem) : Nat × List Nat :=
  match x.rule with
  | 0 =>
    let m := wFma x.b1 (a.st.getD 0 0) a.g
    (wFma (wNeg k.lr) (wFma x.lambda a.w m) a.w, [m])
  | 1 =>
    let r := adamStep x k a
    (wFma (wNeg k.lr) r.2.2 a.w, [r.1, r.2.1])
  | 2 =>
    let r := adamStep x k a
    (wFma (wNeg scale) r.2.2 a.w, [r.1, r.2.1])
  | _ =>
    let u := wDiv a.g (wSqrt (wDiv (wMul rc.1 rc.2) scale))
    let m := wFma x.b1 (a.st.getD 0 0) (wMul k.c1 u)
    let u := if x.momentum then m else u
    (wFma (wNeg k.lr) (wFma x.lambda a.w u) a.w, if x.momentum then [m] else [])

/-- R444: FLIP: the new code. P16 of a product that is no number is free (log 39). -/
def flipStep (x : Schedule) (lr : Nat) (draw : Nat) (a : Elem) : Nat :=
  let p := match lf32 (wMul lr a.g) with
    | .lin _ m => min 65536 (m * 65536).floor.toNat
    | .inf _ => 65536
    | .zero _ => 0
    | _ => Config.flipNan lr a.g % 65537
  if p ≤ draw then a.code
  else
    let down := !(lf32 a.g).neg?
    if x.fmt == fB1 then (if down then 1 else 0)
    else if down then (if a.code == 1 then 0 else 2)
    else if a.code == 2 then 0 else 1

/-- R446: the draw of an element. -/
def Schedule.draw (x : Schedule) (n step e : Nat) : Nat :=
  Machine.draw x.seed x.base (3 * 2 ^ 30 + x.layer * 2 ^ 14) (step * (4 * ceilDiv n 4) + e)

/-! ## Granules (R430, R431, R437, R452) -/

/-- R430: the unit of granule g: (die kind, die, unit). -/
def State.updateUnit (s : State) (x : Schedule) (g : Nat) : DieKind × Nat × Nat :=
  match s.lookup (x.param + 4096 * g) with
  | some (.mem .near o, _) => (.c, (s.place .near o).1 / s.fuses.part.stacksPerDie, g % 4)
  | some (.mem .dep o, _) => (.d, (s.place .dep o).1 / 2, 8)
  | _ => (.c, 0, g % 4)

/-- R352, R452: n bytes of an array can be read and written, in the tier of granule 0. Host memory is a KIND fault (DEDUCED, log 26). -/
def State.checkTier (s : State) (tier : Space) (detail va n : Nat) : Except Halt Unit :=
  match s.translateSpan .device .atomic va n with
  | .error (c, a) => .error (.fault .atomic c a)
  | .ok ts =>
    if ts.all fun p => (match p.1 with | .mem sp _ => sp == tier | _ => false) then .ok () else .error (.remote detail)

/-- What one granule works with. -/
structure Granule where
  x    : Schedule
  l    : LayerLayout
  k    : Scalars
  tier : Space
  mask : Option Nat
  bank : Option (List Nat)
  step : Nat
  g    : Nat
  by_  : Reader

def Granule.first (c : Granule) : Nat := c.g * c.x.perGranule
def Granule.count (c : Granule) : Nat := min c.x.perGranule (c.l.elements - c.first)
def Granule.finish (c : Granule) : Nat := c.first + c.count

/-- The elements whose SUM the granule reads: whole rows under TOUCH ROW. -/
def Granule.sums (c : Granule) : Nat × Nat :=
  if c.x.rows then (c.first / c.x.cols * c.x.cols, ceilDiv c.finish c.x.cols * c.x.cols) else (c.first, c.finish)

/-- R436: the bits of the freeze mask that the granule reads. -/
def Granule.maskSpan (c : Granule) : Nat × Nat :=
  match c.x.grain with
  | 0 => (c.first, c.finish)
  | 1 => (c.first / c.x.cols, (c.finish - 1) / c.x.cols + 1)
  | _ => (c.g, c.g + 1)

/-- Bytes that hold bits lo to hi - 1. -/
def bitBytes (lo hi : Nat) : Nat × Nat := (lo / 8, ceilDiv hi 8 - lo / 8)

/-- The first and last column of the granule's elements. -/
def Granule.colSpan (c : Granule) : Nat × Nat :=
  if c.first / c.x.cols == (c.finish - 1) / c.x.cols then (c.first % c.x.cols, (c.finish - 1) % c.x.cols + 1) else (0, c.x.cols)

def Granule.rowCount (c : Granule) : Nat := c.l.elements / c.x.cols

/-- R452: every page of the granule, before its first write; writes: the granule is to be written. -/
def State.granuleChecks (s : State) (c : Granule) (writes : Bool) : Except Halt Unit :=
  let x := c.x
  let n := c.count
  let pb := bitBytes (c.first * fmtWidth x.fmt) (c.finish * fmtWidth x.fmt)
  let sb := bitBytes (c.first * fmtWidth x.shFmt) (c.finish * fmtWidth x.shFmt)
  let rows := (c.first / x.cols, (c.finish - 1) / x.cols + 1)
  let cols := c.colSpan
  let sm := c.sums
  let own := x.rule != 3 || writes
  let some_ (use : Bool) (detail va len : Nat) : List (Except Halt Unit) := if use then [s.checkTier c.tier detail va len] else []
  checkAll (
    some_ own 0 (x.param + pb.1) pb.2
    ++ some_ (own && x.stateBytes != 0) 1 (x.state + c.first * x.stateBytes) (n * x.stateBytes)
    ++ some_ true 6 (c.l.sum + sm.1 * c.l.resBytes) ((sm.2 - sm.1) * c.l.resBytes)
    ++ (match c.mask with
      | none => []
      | some va => (let b := bitBytes c.maskSpan.1 c.maskSpan.2; some_ true 5 (va + b.1) b.2))
    ++ some_ (x.rule == 3 && writes) 2 (x.factor + 4 * rows.1) (4 * (rows.2 - rows.1))
    ++ some_ (x.rule == 3 && writes) 2 (x.factor + 4 * (c.rowCount + cols.1)) (4 * (cols.2 - cols.1))
    ++ some_ (x.shadow && writes) 3 (x.shVa + sb.1) sb.2
    ++ some_ (x.shadow && writes && scalable x.shFmt) 4 (x.shScales + c.first / 32) (ceilDiv n 32))

/-- R437: why an element is skipped; none: it is updated. -/
inductive Skip | frozen | untouched | nonfinite
  deriving DecidableEq

/-- R437, R438: gradient and fate of the granule's elements. -/
def Granule.fates (c : Granule) (sums mask : List Byte) : List (Nat × Nat × Option Skip) :=
  let x := c.x
  let lo := c.sums.1
  let word (e : Nat) : Nat :=
    let code := getLe sums ((e - lo) * c.l.resBytes) c.l.resBytes
    if c.l.resFmt == fLF32 then code else (convert c.bank c.l.resFmt code 0 fLF32 0 rne 0 0).1
  let zero (e : Nat) : Bool := (decodeNum c.l.resFmt (getLe sums ((e - lo) * c.l.resBytes) c.l.resBytes) 0 0).1.isZero
  let frozen (e : Nat) : Bool :=
    let b := match x.grain with
      | 0 => e
      | 1 => e / x.cols
      | _ => c.g
    c.mask.isSome && elementOf mask fB1 (b - c.maskSpan.1 / 8 * 8) == 1
  let still (e : Nat) : Bool := x.rows && (List.range x.cols).all fun j => zero (e / x.cols * x.cols + j)
  (List.range c.count).map fun i =>
    let e := c.first + i
    let g := word e
    (e, g, if frozen e then some .frozen else if still e then some .untouched
      else if !finite32 g then some .nonfinite else none)

/-- Runs of consecutive numbers: first and length. -/
def runsOf : List Nat → List (Nat × Nat)
  | [] => []
  | e :: es =>
    match runsOf es with
    | (f, n) :: rest => if f == e + 1 then (e, n + 1) :: rest else (e, 1) :: (f, n) :: rest
    | [] => [(e, 1)]

/-- Reads the items of runs of elements, size bytes each. -/
def State.fetchRuns (s : State) (r : Reader) (va size : Nat) (runs : List (Nat × Nat)) : Except Halt (List (List Byte)) × State :=
  match gatherAll (fun e s => s.fetchOwn r (va + e.1 * size) (e.2 * size)) runs s with
  | (.error h, s) => (.error h, s)
  | (.ok bs, s) => (.ok (bs.flatMap fun b => chunks size (b.length / size) b), s)

/-- Writes items of runs of elements. -/
def State.storeRuns (s : State) (r : Reader) (va : Nat) : List (Nat × Nat) → List (List Byte) → State
  | [], _ => s
  | e :: es, items =>
    let bytes := (items.take e.2).flatten
    (s.storeAt r (va + e.1 * (bytes.length / e.2)) bytes).storeRuns r va es (items.drop e.2)

/-- The distinct numbers of a rising list. -/
def distinct : List Nat → List Nat
  | a :: b :: t => if a == b then distinct (b :: t) else a :: distinct (b :: t)
  | l => l

/-- The codes of some of the elements of a list, both rising. -/
def pickCodes : List Nat → List (Nat × Nat) → List Nat
  | _, [] => []
  | [], _ => []
  | e :: es, p :: ps => if p.1 == e then p.2 :: pickCodes es ps else pickCodes (e :: es) ps

/-- The same elements with new codes for some, both lists rising. -/
def putCodes : List (Nat × Nat) → List (Nat × Nat) → List (Nat × Nat)
  | _, [] => []
  | [], ps => ps
  | n :: ns, p :: ps => if p.1 == n.1 then n :: putCodes ns ps else p :: putCodes (n :: ns) ps

/-- The elements whose parameters a granule reads for its updated elements: under SHADOW_EN all of their blocks (R445). -/
def Granule.wanted (c : Granule) (writes : Bool) (es : List Nat) : List Nat :=
  if c.x.shadow && writes then
    (distinct (es.map fun e => e / 32)).flatMap fun b => (List.range (min 32 (c.l.elements - 32 * b))).map fun i => 32 * b + i
  else es

/-- The parameter codes of elements; of formats below a byte, of all in their bytes. -/
def State.fetchCodes (s : State) (c : Granule) (es : List Nat) : Except Halt (List (Nat × Nat)) × State :=
  let w := fmtWidth c.x.fmt
  if 8 ≤ w then
    match s.fetchRuns c.by_ c.x.param (w / 8) (runsOf es) with
    | (.error h, s) => (.error h, s)
    | (.ok bs, s) => (.ok (List.zip es (bs.map leNat)), s)
  else
    let at_ := distinct (es.map fun e => e * w / 8)
    match s.fetchRuns c.by_ c.x.param 1 (runsOf at_) with
    | (.error h, s) => (.error h, s)
    | (.ok bs, s) =>
      (.ok ((List.zip at_ bs).flatMap fun p => (List.range (8 / w)).map fun i => (8 / w * p.1 + i, elementOf p.2 c.x.fmt i)), s)

/-- Writes the codes of updated elements; all: what was read, with them put in. -/
def State.storeCodes (s : State) (c : Granule) (es : List Nat) (all : List (Nat × Nat)) : State :=
  let w := fmtWidth c.x.fmt
  if 8 ≤ w then s.storeRuns c.by_ c.x.param (runsOf es) ((pickCodes es all).map (leBytes (w / 8)))
  else
    let at_ := distinct (es.map fun e => e * w / 8)
    let codes := all.map fun p => p.2
    s.storeRuns c.by_ c.x.param (runsOf at_) ((chunks (8 / w) at_.length codes).map (packCodes c.x.fmt))

/-- What a granule reads of its arrays: the updated elements, and the codes of all that are read. -/
structure ElemData where
  els : List Elem
  all : List (Nat × Nat)

/-- Reads what the granule's updated elements need: parameters and state. -/
def State.fetchElems (s : State) (c : Granule) (writes : Bool) (todo : List (Nat × Nat)) : Except Halt ElemData × State :=
  let es := todo.map fun p => p.1
  if es.isEmpty then (.ok ⟨[], []⟩, s)
  else
    match s.fetchCodes c (c.wanted writes es) with
    | (.error h, s) => (.error h, s)
    | (.ok all, s) =>
      match (if c.x.stateBytes == 0 then (.ok [], s) else s.fetchRuns c.by_ c.x.state c.x.stateBytes (runsOf es)) with
      | (.error h, s) => (.error h, s)
      | (.ok sts, s) =>
        let elem (i : Nat) (p : (Nat × Nat) × Nat) : Elem :=
          { e := p.1.1, g := p.1.2, code := p.2,
            w := if c.x.fmt == fLF32 then p.2 else (convert c.bank c.x.fmt p.2 0 fLF32 0 rne 0 0).1,
            st := (chunks 4 2 (sts.getD i [])).map leNat }
        (.ok ⟨(List.zip todo (pickCodes es all)).mapIdx elem, all⟩, s)

/-- R445: one block of 32 elements of the shadow: codes, scale, events. -/
def shadowBlock (bank : Option (List Nat)) (x : Schedule) (codes : List Nat) : List Nat × Int × List Ev :=
  let xs := codes.map fun v => (decodeNum x.fmt v 0 0).1
  let sc := if scalable x.shFmt then chooseScale 2 x.shFmt xs else 0
  let r := xs.map (encodeNum bank x.shFmt sc rne 0 0)
  (r.map fun p => p.1, sc, r.map fun p => p.2)

/-- R445: rewrites a block that holds an updated element, from its elements' new codes. -/
def State.shadowWrite (s : State) (c : Granule) (block : List (Nat × Nat)) : List Ev × State :=
  let b := (block.head?.elim 0 fun p => p.1) / 32
  let r := shadowBlock c.bank c.x (block.map fun p => p.2)
  let w := fmtWidth c.x.shFmt
  let s := s.storeAt c.by_ (c.x.shVa + 4 * w * b) (packCodes c.x.shFmt r.1)
  (r.2.2, if scalable c.x.shFmt then s.storeAt c.by_ (c.x.shScales + b) (leBytes 1 (unsignedOf 8 r.2.1)) else s)

def State.shadowAll (s : State) (c : Granule) : List (List (Nat × Nat)) → List Ev × State
  | [] => ([], s)
  | b :: bs =>
    let r := s.shadowWrite c b
    let t := r.2.shadowAll c bs
    (r.1 ++ t.1, t.2)

/-- Counts of 64 bits that stop. -/
def stop64 (n : Nat) : Nat := min n (2 ^ 64 - 1)

/-- R437: the counters of a granule that has been done, in the pass that writes. -/
def UpdateOp.tally (op : UpdateOp) (fates : List (Nat × Nat × Option Skip)) : UpdateOp :=
  let n (k : Option Skip) : Nat := (fates.filter fun f => f.2.2 == k).length
  { op with
    updated := stop64 (op.updated + n none)
    frozen := stop64 (op.frozen + n (some .frozen))
    untouched := stop64 (op.untouched + n (some .untouched))
    nonfinite := stop64 (op.nonfinite + n (some .nonfinite)) }

/-- R439: a pair that has taken one term. -/
def pairTerm (p : Pair) (t : Nat) : Pair :=
  let r := pairStep 0 p.1 p.2 (lf32 t)
  (r.1, r.2.1)

/-- R439 step 3. -/
def pairWord (p : Pair) : Nat := toLf32 (pairNum p.1 p.2)

/-- R439: the partials of a granule: (sum, term) pairs in element order, gathered by sum. -/
def partialsOf (terms : List (Nat × Nat)) : List (Nat × Pair) :=
  (terms.map fun t => t.1).eraseDups.map fun i =>
    (i, ((terms.filter fun t => t.1 == i).map fun t => t.2).foldl pairTerm (0#32, 0#32))

/-- R442, R443: the terms of pass 1: for LAMB sums 0 (w × w) and 1 (u × u); for FACTORED one sum a row, then one a column. -/
def Granule.terms (c : Granule) (els : List Elem) : List (Nat × Nat) :=
  els.flatMap fun a =>
    if c.x.rule == 2 then
      let u := (adamStep c.x c.k a).2.2
      [(0, wMul a.w a.w), (1, wMul u u)]
    else
      let t := wFma a.g a.g c.x.eps
      [(a.e / c.x.cols, t), (c.rowCount + a.e % c.x.cols, t)]

/-- R452: the SUM and mask bytes of a granule. -/
def State.granuleFates (s : State) (c : Granule) : Except Halt (List (Nat × Nat × Option Skip)) × State :=
  let sm := c.sums
  match s.fetchOwn c.by_ (c.l.sum + sm.1 * c.l.resBytes) ((sm.2 - sm.1) * c.l.resBytes) with
  | (.error h, s) => (.error h, s)
  | (.ok sums, s) =>
    match c.mask with
    | none => (.ok (c.fates sums []), s)
    | some va =>
      let b := bitBytes c.maskSpan.1 c.maskSpan.2
      match s.fetchOwn c.by_ (va + b.1) b.2 with
      | (.error h, s) => (.error h, s)
      | (.ok mask, s) => (.ok (c.fates sums mask), s)

/-- R442, R443: a granule of pass 1. -/
def State.passOne (s : State) (c : Granule) (op : UpdateOp) : Except Halt UpdateOp × State :=
  match s.granuleChecks c false with
  | .error h => (.error h, s)
  | .ok _ =>
    match s.granuleFates c with
    | (.error h, s) => (.error h, s)
    | (.ok fates, s) =>
      let todo := (fates.filter fun f => f.2.2.isNone).map fun f => (f.1, f.2.1)
      match (if c.x.rule == 3 then (.ok ⟨todo.map fun p => Elem.mk p.1 p.2 0 0 [], []⟩, s) else s.fetchElems c false todo) with
      | (.error h, s) => (.error h, s)
      | (.ok x, s) =>
        let ps := (partialsOf (c.terms x.els)).map fun p => (c.g, p.1, p.2.1, p.2.2)
        (.ok { op with partials := op.partials ++ ps }, s)

/-- R441 to R446: the new code, the new state and the events of an updated element. -/
def Granule.apply (c : Granule) (scale : Nat) (rc : Nat → Nat × Nat) (a : Elem) : Nat × List Nat × Ev :=
  let draw := c.x.draw c.l.elements c.step a.e
  if c.x.rule == 4 then (flipStep c.x c.k.lr draw a, [], .none)
  else
    let r := ruleStep c.x c.k scale (rc a.e) a
    let y := encodeNum c.bank c.x.fmt 0 (if c.x.stoch then stoch else rne) 0 (if c.x.stoch then draw else 0) (lf32 r.1)
    (y.1, r.2, y.2)

/-- R441 to R446: writes a granule whose every byte has been read. -/
def State.granuleWrite (s : State) (c : Granule) (op : UpdateOp) (x : ElemData) (rc : Nat → Nat × Nat) : UpdateOp × State :=
  let es := x.els.map fun a => a.e
  let rs := x.els.map (c.apply op.scale.toNat rc)
  let all := putCodes (List.zip es (rs.map fun r => r.1)) x.all
  let flips := if c.x.rule == 4 then ((List.zip x.els rs).filter fun p => p.1.code != p.2.1).length else 0
  let s := s.storeCodes c es all
  let s := if c.x.stateBytes == 0 then s else s.storeRuns c.by_ c.x.state (runsOf es) (rs.map fun r => r.2.1.flatMap (leBytes 4))
  let sh := if c.x.shadow then s.shadowAll c (chunks 32 (ceilDiv all.length 32) all) else ([], s)
  ({ op with
      flips := stop64 (op.flips + flips)
      counts := (op.counts.addAll (rs.map fun r => r.2.2)).addAll sh.1 }, sh.2)

/-- R441 to R446: a granule that is written: everything that it reads comes before its first write (R453). -/
def State.passWrite (s : State) (c : Granule) (op : UpdateOp) : Except Halt UpdateOp × State :=
  match s.granuleChecks c true with
  | .error h => (.error h, s)
  | .ok _ =>
    match s.granuleFates c with
    | (.error h, s) => (.error h, s)
    | (.ok fates, s) =>
      let todo := (fates.filter fun f => f.2.2.isNone).map fun f => (f.1, f.2.1)
      match s.fetchElems c true todo with
      | (.error h, s) => (.error h, s)
      | (.ok x, s) =>
        let cols := c.colSpan
        let row0 := c.first / c.x.cols
        let rowN := (c.finish - 1) / c.x.cols + 1 - row0
        match (if c.x.rule == 3 && !todo.isEmpty then s.fetchRuns c.by_ c.x.factor 4 [(row0, rowN), (c.rowCount + cols.1, cols.2 - cols.1)]
            else (.ok [], s)) with
        | (.error h, s) => (.error h, s)
        | (.ok fs, s) =>
          let rc (e : Nat) : Nat × Nat :=
            (leNat (fs.getD (e / c.x.cols - row0) []), leNat (fs.getD (rowN + (e % c.x.cols - cols.1)) []))
          let r := if todo.isEmpty then (op, s) else s.granuleWrite c op x rc
          (.ok { r.1.tally fates with granules := stop64 (op.granules + 1) }, r.2)

/-! ## Running an update (R431, R447 to R449, R453) -/

def State.modUpdate (s : State) (layer : Nat) (f : UpdateOp → UpdateOp) : State :=
  -- the first of the layer is the one that runs
  { s with update := { s.update with ops :=
      (s.update.ops.foldl (fun (acc : List UpdateOp × Bool) u =>
        if u.layer == layer && !acc.2 then (acc.1 ++ [f u], true) else (acc.1 ++ [u], acc.2)) ([], false)).1 } }

def State.update? (s : State) (layer : Nat) : Option UpdateOp := s.update.ops.find? fun u => u.layer == layer

/-- The lowest granule not done at or after n, and those done beyond it. -/
def settleNext : Nat → Nat → List Nat → Nat × List Nat
  | 0, n, ahead => (n, ahead)
  | fuel + 1, n, ahead => if ahead.contains n then settleNext fuel (n + 1) (ahead.filter fun k => k != n) else (n, ahead)

def UpdateOp.didGranule (op : UpdateOp) (g : Nat) : UpdateOp :=
  let ahead := insertNat g op.ahead
  let r := settleNext (ahead.length + 1) op.next ahead
  { op with next := r.1, ahead := r.2 }

/-- R442, R443: rules in two passes. -/
def Schedule.twoPass (x : Schedule) : Bool := x.rule == 2 || x.rule == 3

/-- A unit of an update waits under a fault. -/
def UpdateOp.stop (op : UpdateOp) (u : DieKind × Nat × Nat) (x : Suspension) : UpdateOp := { op with stopped := op.stopped ++ [⟨u, x⟩] }

/-- R453: an update ends: every unit stops, and those that wait under a fault wait no longer. -/
def UpdateOp.finish (op : UpdateOp) (e : Ending) : UpdateOp := { op with stopped := [], ended := some e }

/-- What a halt of a unit does to its update. -/
def State.unitHalt (s : State) (op : UpdateOp) (u : DieKind × Nat × Nat) (h : Halt) : UpdateOp × State :=
  let r := s.haltEnd h
  match r.1.1, r.1.2 with
  | some x, _ => (op.stop u x, r.2)
  | none, some e => (op.finish e, r.2)
  | none, none => (op, r.2)

/-- R452, R453: granules from g on. A unit that meets a fault stops, and the others go on; an end stops every unit. -/
def State.updateRun (x : Schedule) (ctx : Nat → Granule) (writes : Bool) : Nat → Nat → UpdateOp → State → UpdateOp × State
  | 0, _, op, s => (op, s)
  | n + 1, g, op, s =>
    let u := s.updateUnit x g
    if g < op.next || op.ahead.contains g || op.stopped.any fun w => w.unit == u then State.updateRun x ctx writes n (g + 1) op s
    else
      let s := s.powerUp (.update u.1 u.2.1)
      let c := { ctx g with by_ := updateReader u }
      match (if writes then s.passWrite c op else s.passOne c op) with
      | (.ok op, s) => State.updateRun x ctx writes n (g + 1) (op.didGranule g) s
      | (.error h, s) =>
        let r := s.unitHalt op u h
        if r.1.ended.isSome then r else State.updateRun x ctx writes n (g + 1) r.1 r.2

/-- What the granules of a running update work with. -/
def State.granuleOf (s : State) (op : UpdateOp) (x : Schedule) (l : LayerLayout) (g : Nat) : Granule :=
  { x := x, l := l, k := x.scalars op.step.toNat, tier := (s.tierAt x.param).getD .near,
    mask := (s.update.masks.find? fun m => m.1 == op.layer).map fun m => m.2,
    bank := s.antilogBank op.bank, step := op.step.toNat, g := g, by_ := updateReader (s.updateUnit x g) }

/-- Goes on with the granules of the pass at hand. -/
def State.updateGo (s : State) (op : UpdateOp) (x : Schedule) (l : LayerLayout) : State :=
  let n := x.granules l.elements
  let r := State.updateRun x (s.granuleOf op x l) (!x.twoPass || op.pass == 2) (n - op.next) op.next op s
  r.2.modUpdate op.layer fun _ => r.1

/-- R432: an array of the layer overlaps one of another layer with an entry, or its own GRAD, ERR, CBUF or SUM. -/
def State.updateOverlaps (s : State) (layer : Nat) (x : Schedule) (l : LayerLayout) : Bool :=
  let spans (y : Schedule) (k n : Nat) : List (Nat × Nat) :=
    ((y.arrays n).map fun a => (a.2.2.1, a.2.2.1 + a.2.2.2))
      ++ match s.update.masks.find? fun m => m.1 == k with
        | some m => [(m.2, m.2 + ceilDiv (y.maskBits n) 8)]
        | none => []
  let own := [(l.grad, l.grad + l.elements * l.gradBytes), (l.err, l.err + 4 * l.elements), (l.cbuf, l.cbuf + l.buckets * l.slot),
    (l.sum, l.sum + l.elements * l.resBytes)]
  let others := (s.update.schedule.filter fun e => e.layer != layer).flatMap fun e =>
    let y := Schedule.of e.bytes
    match s.layoutOf y.group e.layer with
    | some m => spans y e.layer m.elements
    | none => []
  (spans x layer l.elements).any fun a => (own ++ others).any fun b => spansMeet a b

/-- R448: why the rule is not applied. -/
def UpdateOp.skips (op : UpdateOp) (e : ScheduleEntry) : Option Ending :=
  if bitAt op.flags 0 then some ⟨0x0150, 0⟩
  else if op.step != e.lastStep + 1#32 && e.lastStep != 0xFFFFFFFF#32 then some ⟨0x0150, 1⟩
  else if op.reduce.status != stOk then some ⟨0x0151, op.reduce.status⟩
  else if bitAt op.flags 2 then some ⟨0x0151, 0x0140⟩
  else if bitAt op.flags 3 then some ⟨0x0151, 0x0142⟩
  else none

/-- R448: the record of a step mismatch. -/
def State.skipRecord (s : State) (op : UpdateOp) (e : ScheduleEntry) (x : Ending) : State :=
  if x.status != 0x0150 then s
  else s.log { cls := 0x0041, severity := 0, siteKind := 7, site := 0, unit := 0xFFFF, injected := false,
               payload := [op.layer, op.step.toNat, (e.lastStep + 1#32).toNat] }

/-- R108, R434, R447 to R449: the lead unit starts an update, or goes on with pass 1 or the single pass. -/
def execUpdateStart (layer : Nat) (s : State) : Host.Outcome State Fault Refusal := s.after <|
  match s.update? layer, s.schedule? layer with
  | some op, some e =>
    let x := Schedule.of e.bytes
    if op.ended.isSome || !s.enginesRun || (op.started && op.pass == 2) then .next s
    else if op.started then .next (s.updateGo op x (LayerLayout.of op.layout))
    else if s.carrelFull op.carrel then .next s
    else
      let ends (y : Ending) (s : State) : State := s.modUpdate layer fun op => { op with started := true, ended := some y }
      match s.layoutRecord op.group layer with
      | none => .next (ends ⟨stMalformed, 4⟩ s)
      | some r =>
        let l := LayerLayout.of r
        match s.scheduleBad e.bytes layer l with
        | some f => .next (ends ⟨stMalformed, f⟩ s)
        | none =>
          match op.skips e with
          | some y => .next (ends y (s.skipRecord op e y))
          | none =>
            if s.updateOverlaps layer x l then .fault .updateOverlap
            else
              let lead := s.updateUnit x 0
              let op := { op with started := true, layout := r, bank := s.tables.antilog.bankOf (.update lead.1 lead.2.1) }
              .next ((s.modUpdate layer fun _ => op).updateGo op x l)
  | _, _ => .next s

/-- R439: a layer sum from the granules' partials, in granule order. -/
def UpdateOp.sum (op : UpdateOp) (i : Nat) : Pair :=
  (((op.partials.filter fun p => p.2.1 == i).mergeSort fun a b => a.1 ≤ b.1).map fun p => (p.2.2.1, p.2.2.2)).foldl pairAdd (0#32, 0#32)

/-- R443: factors of one list of sums: read, advanced where the sum has a term, written. -/
def factorStep (x : Schedule) (k : Scalars) (op : UpdateOp) (i old : Nat) : Nat :=
  if op.partials.any fun p => p.2.1 == i then wFma x.b2 old (wMul k.c2 (pairWord (op.sum i))) else old

/-- R442, R443: the lead unit's work between the passes. -/
def State.leadStep (s : State) (op : UpdateOp) (x : Schedule) (l : LayerLayout) : Except Halt UpdateOp × State :=
  let k := x.scalars op.step.toNat
  let next := { op with pass := 2, next := 0, ahead := [] }
  if x.rule == 2 then
    let sw := pairWord (op.sum 0)
    let su := pairWord (op.sum 1)
    let r := if wPos sw && wPos su then wDiv (wSqrt sw) (wSqrt su) else 0x3F800000
    (.ok { next with trust := BitVec.ofNat 32 r, scale := BitVec.ofNat 32 (wMul k.lr r) }, s)
  else
    let rows := l.elements / x.cols
    let n := rows + x.cols
    let tier := (s.tierAt x.param).getD .near
    match s.checkTier tier 2 x.factor (4 * n) with
    | .error h => (.error h, s)
    | .ok _ =>
      let rd := updateReader (s.updateUnit x 0)
      match s.fetchRuns rd x.factor 4 [(0, n)] with
      | (.error h, s) => (.error h, s)
      | (.ok old, s) =>
        let new := old.mapIdx fun i b => factorStep x k op i (leNat b)
        let sum := pairWord ((new.take rows).foldl pairTerm (0#32, 0#32))
        let touched := (List.range n).filter fun i => op.partials.any fun p => p.2.1 == i
        let s := s.storeRuns rd x.factor (runsOf touched) (touched.map fun i => leBytes 4 (new.getD i 0))
        (.ok { next with scale := BitVec.ofNat 32 sum }, s)

/-- R449: with every partial in, the lead unit forms the scalars, and pass 2 runs. -/
def execUpdatePass2 (layer : Nat) (s : State) : Host.Outcome State Fault Refusal := s.after <|
  match s.update? layer, s.schedule? layer with
  | some op, some e =>
    let x := Schedule.of e.bytes
    let l := LayerLayout.of op.layout
    if op.ended.isSome || !s.enginesRun || !op.started || !x.twoPass then .next s
    else if op.pass == 2 then .next (s.updateGo op x l)
    else if !op.stopped.isEmpty || op.next < x.granules l.elements then .next s
    else
      match s.leadStep op x l with
      | (.ok op, s) => .next ((s.modUpdate layer fun _ => op).updateGo op x l)
      | (.error h, s) =>
        let r := s.unitHalt op (s.updateUnit x 0) h
        .next (r.2.modUpdate layer fun _ => r.1)
  | _, _ => .next s

/-! ## The end (R450, R455) -/

/-- R455: the status record. ELAPSED_NS is a free value (log 11). -/
def updateRecord (op : UpdateOp) (rule : Nat) (e : Ending) (elapsed : Word64) : List Byte :=
  leBytes 4 (e.status + e.detail % 32768 * 2 ^ 16 + 2 ^ 31) ++ leBytes 4 (op.layer + rule * 2 ^ 16) ++ leBytes 4 op.step.toNat
    ++ leBytes 4 op.trust.toNat ++ leBytes 8 op.updated ++ leBytes 8 op.frozen ++ leBytes 8 op.untouched ++ leBytes 8 op.nonfinite
    ++ leBytes 4 op.counts.sat ++ leBytes 4 op.counts.flush ++ leBytes 8 op.flips ++ leBytes 8 op.granules
    ++ leBytes 8 elapsed.toNat ++ zeros 16

/-- R450 step 3: the completion of an update. -/
def State.postUpdate (s : State) (op : UpdateOp) (notify : Bool) (e : Ending) : State :=
  if !notify && e.status == stOk then s
  else
    s.post op.carrel
      { seq := 0#32, ticket := 0#32, opcode := 0x00F1, queue := 0xFFFF, tag := BitVec.ofNat 32 op.layer, status := e.status,
        detail := e.detail, lo := op.step, hi := BitVec.ofNat 32 op.updated }

/-- The update is done: LAST_STEP (R448), the completion, and the next of the layer may start. -/
def State.dropUpdate (s : State) (op : UpdateOp) (notify : Bool) (e : Ending) : State :=
  let s := s.postUpdate op notify e
  let sch := if e.status == stOk then
      updIf (fun x => x.layer == op.layer) (fun x => { x with lastStep := op.step }) s.update.schedule
    else s.update.schedule
  let rest := s.update.ops.foldl (fun (acc : List UpdateOp × Bool) u =>
    if u.layer == op.layer && !acc.2 then (acc.1, true) else (acc.1 ++ [u], acc.2)) ([], false)
  { s with update := { s.update with schedule := sch, ops := rest.1 } }

/-- R432, R452: the done word lies in a tier. -/
def State.doneInTier (s : State) (x : Schedule) : Bool :=
  match s.translateSpan .device .atomic x.done 8 with
  | .ok ts => ts.all fun p => (match p.1 with | .mem sp _ => isTier sp | _ => false)
  | .error (c, _) => suspends c

/-- R452: how an update that has written every granule ends: a done word of another kind, or whose translation cannot succeed, shows in it. -/
def State.wholeEnding (s : State) (x : Schedule) : Ending × State :=
  if x.done == 0 || s.doneInTier x then (⟨stOk, 0⟩, s)
  else
    match s.translateSpan .device .atomic x.done 8 with
    | .error (c, a) => s.faultEnding c a
    | .ok _ => (stRemote 7, s)

/-- R450 step 2: AMO.ADD 1 on DONE_WORD. A fault waits; a word that cannot be read changes how the update ends. -/
def State.signalDone (s : State) (x : Schedule) (e : Ending) : (Option Suspension × Ending) × State :=
  if x.done == 0 || !s.doneInTier x then ((none, e), s)
  else
    match s.amo (updateReader (s.updateUnit x 0)) .device 0 x.done 1#64 0#64 with
    | (.bytes _, s) => ((none, e), s)
    | (.away _, s) => ((none, e), s)
    | (.dead k, s) => ((none, ⟨stDeviceError, k % 65536⟩), s)
    | (.stop c a, s) =>
      if suspends c then ((some (suspension c .atomic a), e), s)
      else
        let f := s.faultEnding c a
        ((none, f.1), f.2)

/-- R450 steps 2 and 3, once the record is written: op has ended as how. -/
def State.updateSignal (s : State) (op : UpdateOp) (x : Schedule) (how : Ending) : State :=
  let r := s.signalDone x how
  match r.1.1 with
  | some y => r.2.modUpdate op.layer fun op => ({ op with ended := some how, recorded := true }).stop (s.updateUnit x 0) y
  | none => r.2.dropUpdate op x.notify r.1.2

/-- R450: every granule is written, or the update has ended. -/
def execUpdateEnd (layer : Nat) (s : State) : Host.Outcome State Fault Refusal := s.after <|
  match s.update? layer, s.schedule? layer with
  | some op, some e =>
    let x := Schedule.of e.bytes
    let whole := x.granules (LayerLayout.of op.layout).elements ≤ op.next && (!x.twoPass || op.pass == 2)
    if !op.started || !op.stopped.isEmpty || (op.ended.isNone && !whole) then .next s
    else if op.recorded then .next (s.updateSignal op x (op.ended.getD ⟨stOk, 0⟩))
    else if s.recordHeld x.status 96 then .next s
    else
      let lead := s.updateUnit x 0
      let h := match op.ended with
        | some y => (y, s)
        | none => s.wholeEnding x
      let f := h.2.fresh
      .next (match f.2.recordAt (updateReader lead) (.update layer) x.status (updateRecord op x.rule h.1 f.1) with
        | (.ok, s) => s.updateSignal op x h.1
        | (.failed k, s) => s.updateSignal op x ⟨stDeviceError, k % 65536⟩
        | (.stop c a, s) =>
          if suspends c then s.modUpdate layer fun op => ({ op with ended := some h.1 }).stop lead (suspension c .write a)
          else
            let g := s.faultEnding c a
            g.2.updateSignal op x g.1)
  | _, _ => .next s

end Sys2Proof.Machine
end

