-- ==== Sys2Proof/Machine/Domains.lean ====
section
/-! DEFINITION. The switched power domains: when each is gated, and what wakes it (R500 to R502). -/

namespace Sys2Proof.Machine

/-- A matrix engine with nothing queued and nothing in progress. -/
def MatrixEngine.idle (m : MatrixEngine) : Bool := m.queue.isEmpty && m.active.isNone && m.preempted.isNone

/-- R501: granules of an update, running or to come, lie on a die. -/
def State.updatesOn (s : State) (k : DieKind) (d : Nat) : Bool :=
  s.update.ops.any fun op =>
    (s.schedule? op.layer).any fun e =>
      let x := Schedule.of e.bytes
      (List.range (x.granules (LayerLayout.of op.layout).elements)).any fun g =>
        let u := s.updateUnit x g
        u.1 == k && u.2.1 == d

/-- R501: the condition under which a domain may be gated. -/
def State.gateable (s : State) (d : Domain) : Bool :=
  match d with
  | .cluster e => (match s.cluster? e with
    | some c => c.threads.all (fun t => t.state == .idle) && c.matrix.idle && c.vector.queue.isEmpty && c.vector.active.isNone
    | none => false)
  | .conventional c => (match s.conv[c]? with | some u => u.ops.isEmpty | none => false)
  | .update k d => !s.updatesOn k d
  | .windwayPort p => (match s.ww.ports[p]? with | some _ => !s.ww.fabric.portEn.getLsbD p | none => false)
  | .consort x => x < s.fuses.part.x && s.coll.groups.isEmpty
  | .engines x => (match s.routers[x]? with
    | some r => r.queue.isEmpty && r.hold.isEmpty && r.active.isNone
        && ((s.dma.drop (4 * x)).take 4).all (fun j => j.isNone)
    | none => false)

def execDomainGate (d : Domain) (s : State) : Host.Outcome State Fault Refusal := s.after <| s.retime <|
  if s.fwRuns && s.gateable d && !s.power.gated.contains d then
    let f := s.fresh
    let die := domainDie d
    .next ((({ f.2 with power := { s.power with gated := s.power.gated ++ [d] } }).modDie die.1 die.2 fun x =>
      { x with gatedNs := f.1 }))
  else .next s

/-- R501: a gated Windway port is not woken before the next start. -/
def execDomainWake (d : Domain) (s : State) : Host.Outcome State Fault Refusal := s.after <|
  match d with
  | .windwayPort _ => .next s
  | .cluster _ => .next (s.powerUp d)
  | .conventional _ => .next (s.powerUp d)
  | .update _ _ => .next (s.powerUp d)
  | .consort _ => .next (s.powerUp d)
  | .engines _ => .next (s.powerUp d)

end Sys2Proof.Machine
end

