-- ==== Sys2Proof/Machine/Routing.lean ====
section
/-! DEFINITION. Conditional computation: routing records (R323, R324), ROUTE (R325 to R334), RECALL, RELEASE (R335 to R337) and the
end of a routing descriptor (R339). -/

namespace Sys2Proof.Machine

/-- R370: REQ_KIND of a routing engine, on its X-die. -/
def routingReader (x : Nat) : Reader := ⟨4, none, some (.x, x)⟩

/-! ## Accesses (R322) -/

/-- R322: near tier, depository or local memory. -/
def inDevice (ts : List (Target × Nat)) : Bool := ts.all fun p => (match p.1 with | .mem _ _ => true | _ => false)

/-- R322: reads n bytes of device memory. -/
def State.fetchDevice (s : State) (r : Reader) (detail va n : Nat) : Except Halt (List Byte) × State :=
  match s.translateSpan .device .read va n with
  | .error (c, a) => (.error (.fault .read c a), s)
  | .ok ts =>
    if !inDevice ts then (.error (.remote detail), s)
    else
      match s.readPieces r ts with
      | (.bytes b, s') => (.ok b, s')
      | (.dead k, s') => (.error (.dead k), s')
      | (_, s') => (.error (.remote detail), s')

/-- R322: whether n bytes of device memory may be written. -/
def State.checkDevice (s : State) (detail va n : Nat) : Except Halt Unit :=
  match s.translateSpan .device .write va n with
  | .error (c, a) => .error (.fault .write c a)
  | .ok ts => if inDevice ts then .ok () else .error (.remote detail)

/-! ## Records of SET_ROUTING (R323, R324) -/

/-- A routing layer record (R324). -/
structure LayerRec where
  k       : Nat
  gate    : Nat
  ovf     : Nat
  depth   : Nat
  home    : Nat
  layer   : Nat
  experts : Nat
  cap     : Nat
  ovfCap  : Nat
  bias    : Nat
  mask    : Nat
  dispatch : Nat
  dgate   : Nat
  counts  : Nat

def LayerRec.of (d : List Byte) : LayerRec :=
  let w := get32 d 0
  { k := field w 6 4, gate := field w 8 7, ovf := field w 10 9, depth := field w 13 11, home := field w 15 14, layer := field w 31 16,
    experts := get16 d 4, cap := get32 d 8, ovfCap := get32 d 0xC, bias := descAddr d 0x10, mask := descAddr d 0x18,
    dispatch := descAddr d 0x20, dgate := descAddr d 0x28, counts := descAddr d 0x30 }

/-- R324: ROWS. -/
def LayerRec.rows (r : LayerRec) : Nat := r.cap + r.ovfCap

/-- R332: the flow table's entries. -/
def flowEntries : Nat := 262144

/-- R333: bytes of the chain heads. -/
def headBytes : Nat := 131072

/-- R332: the entry that 32 bytes spell. -/
def flowOf (index : Nat) (b : List Byte) : FlowEntry :=
  let w := get32 b 0x18
  { index := index, layer := get16 b 0, batch := get16 b 2, token := getLe b 4 3, stepTag := get8 b 7,
    choices := (List.range 4).map fun i => BitVec.ofNat 32 (get32 b (8 + 4 * i)), nan := bitAt w 2, k := field w 5 3, corrupt := 0 }

/-- The spill list's entries in use, as they stand in memory. -/
def State.spillEntries (s : State) : List FlowEntry :=
  s.routing.spillUsed.map fun i =>
    flowOf i ((s.peek (s.routing.spillVa + headBytes + 32 * i) 32).getD (zeros 32))

/-- Every VALID entry. -/
def State.validFlows (s : State) : List FlowEntry := s.routing.table ++ s.spillEntries

def State.anyFlow (s : State) : Bool := !s.routing.table.isEmpty || !s.routing.spillUsed.isEmpty

/-- R323: the bytes of a spill area. -/
def spillBytes (entries : Nat) : Nat := if entries == 0 then 0 else headBytes + 32 * entries

/-- R323: the area translates wholly to the near tier. -/
def State.spillTranslates (s : State) (va entries : Nat) : Bool :=
  match s.translateSpan .device .write va (spillBytes entries) with
  | .ok ts => ts.all fun p => (match p.1 with | .mem .near _ => true | _ => false)
  | .error _ => false

/-- R323: a device record. -/
def setRoutingDevice (d : List Byte) (s : State) : Answer × State :=
  let w := get32 d 0
  let keySet := bitAt w 4
  let va := descAddr d 0x10
  let entries := get32 d 0x18
  let bad := field w 31 5 != 0 || w % 16 != 0 || get32 d 4 != 0 || va % 4096 != 0 || field (get32 d 0x14) 31 25 != 0
    || 2 ^ 22 < entries || get32 d 0x1C != 0 || (entries != 0 && !s.spillTranslates va entries)
  if bad then (ansField 0, s)
  else if s.anyFlow && (keySet || !s.routing.spillUsed.isEmpty) then (ans stBadState, s)
  -- entries that running descriptors have reserved cannot go (DESIGN CHOICE, log 36)
  else if s.routing.free + entries < s.routing.spillEntries then (ans stBadState, s)
  else
    (ansOk [], { s with routing := { s.routing with
      flowKey := if keySet then BitVec.ofNat 64 (get64 d 8) else s.routing.flowKey
      spillVa := va
      spillEntries := entries
      free := s.routing.free + entries - s.routing.spillEntries } })

/-- R324: whether a layer record breaks a rule. -/
def layerBad (p : Part) (d : List Byte) : Bool :=
  let r := LayerRec.of d
  let upper (off : Nat) : Bool := field (get32 d (off + 4)) 31 25 != 0
  get16 d 6 != 0 || 4096 < r.experts || get64 d 0x38 != 0
    || (r.experts != 0 && (r.k == 0 || 4 < r.k || r.gate == 3 || r.ovf == 3 || (r.ovf == 1 && r.depth == 0) || p.x ≤ r.home
      || r.cap == 0 || 65536 < r.cap || 65536 < r.ovfCap || (r.ovf != 2 && r.ovfCap != 0)
      || [0x10, 0x18, 0x20, 0x28, 0x30].any upper))

/-- R324: a layer record. -/
def setRoutingLayer (d : List Byte) (s : State) : Answer × State :=
  let r := LayerRec.of d
  let rest := s.routing.layers.filter fun l => l.1 != r.layer
  if layerBad s.fuses.part d then (ansField 0, s)
  else if r.experts == 0 then
    if s.validFlows.any fun f => f.layer == r.layer then (ans stBusy, s)
    else (ansOk [], { s with routing := { s.routing with layers := rest } })
  else if rest.length == s.routing.layers.length && 4096 ≤ rest.length then (ans stNoResource, s)
  else (ansOk [], { s with routing := { s.routing with layers := rest ++ [(r.layer, d)] } })

/-- SET_ROUTING: reads a record of n bytes and sets it. -/
def setRoutingBody (n : Nat) (set_ : List Byte → State → Answer × State) (pl : List Byte) (s : State) : Answer × State :=
  match s.commandRead (get64 pl 0) n with
  | (.error a, s) => (a, s)
  | (.ok d, s) => set_ d s

/-- The KIND of the record that the request in a carrel names, where it can be read. -/
def State.policyKind (s : State) (k : Nat) : Option Nat :=
  match s.carrel? k with
  | none => none
  | some c => (s.peek (get64 (c.requestBytes 0x50 8) 0) 4).map fun b => get32 b 0 % 16

/-- R323: SET_ROUTING with a record of KIND 0 (or of none that there is). -/
def execSetRoutingDevice (carrel : Nat) (s : State) : Host.Outcome State Fault Refusal := s.after <|
  if s.policyKind carrel == some 1 then .next s else takeRing carrel 0x005C (setRoutingBody 32 setRoutingDevice) s

/-- R324: SET_ROUTING with a record of KIND 1. -/
def execSetRoutingLayer (carrel : Nat) (s : State) : Host.Outcome State Fault Refusal := s.after <|
  if s.policyKind carrel == some 1 then takeRing carrel 0x005C (setRoutingBody 64 setRoutingLayer) s else .next s

/-! ## The descriptor (R320, R321) -/

structure RouteDesc where
  mode    : Nat
  fmt     : Nat
  layer   : Nat
  batch   : Nat
  tokens  : Nat
  base    : Nat
  tag     : Nat
  scores  : Nat
  pitch   : Nat
  combine : Nat
  cgate   : Nat
  status  : Nat

def RouteDesc.of (d : List Byte) : RouteDesc :=
  { mode := field (get32 d 0) 5 4, fmt := field (get32 d 0) 9 6, layer := get16 d 4, batch := get16 d 6, tokens := get32 d 8,
    base := getLe d 0xC 3, tag := get8 d 0xF, scores := descAddr d 0x10, pitch := get32 d 0x18, combine := descAddr d 0x20,
    cgate := descAddr d 0x28, status := descAddr d 0x88 }

/-- R320, R321: the first bad field; experts is the layer's E, where it has a record. -/
def routeBad (d : List Byte) (experts : Nat) : Option Nat :=
  let x := RouteDesc.of d
  let route := x.mode == 0
  leastBad ([(0, descKind d != 4 || x.mode == 3 || !([fLF32, fLF16, fL16, fL32].contains x.fmt) || field (get32 d 0) 31 10 != 0),
      (8, x.tokens == 0 || 65536 < x.tokens), (0xC, 2 ^ 24 < x.base + x.tokens),
      (0x10, route && x.scores % 4 != 0), addrBad d 0x10,
      (0x18, route && (x.pitch % 4 != 0 || x.pitch < ceilDiv (experts * fmtWidth x.fmt) 8)), (0x1C, get32 d 0x1C != 0),
      (0x20, x.mode != 2 && x.combine % 4 != 0), addrBad d 0x20, (0x28, route && x.cgate % 4 != 0), addrBad d 0x28]
    ++ gapBad d 0x30 0x88 :: tailBad d 0xC0)

/-! ## Choosing experts (R325, R326) -/

/-- An eligible expert: its number, its score, and the sum it is ordered by. -/
structure Scored where
  expert : Nat
  score  : Num
  sum    : Num

/-- R325: puts an expert after those of equal or larger sum. -/
def insertScored (e : Scored) : List Scored → List Scored
  | [] => [e]
  | f :: fs => if f.sum.lt e.sum then e :: f :: fs else f :: insertScored e fs

/-- R325: the sum of +∞ and -∞, which the manual does not order, is a free one of the two (log 30). -/
def sumFor (bank : Option (List Nat)) (score bias : Num) : Num :=
  let r := (addNum (score.linear bank) bias).1
  if r.isNan then .inf (!Config.infiniteSum (score == .inf false)) else r

/-- R326: a gate word: a quotient rounded once to LF32. -/
def gateWord (num den : Num) : Word32 :=
  BitVec.ofNat 32 (match num.rat none, den.rat none with
    | some a, some b => if b == 0 then lfNan fLF32 else toLf32 (numOfRat (a / b))
    | _, _ => lfNan fLF32)

/-- R326: the gates of the chosen scores; of k that are +∞ each gets 1/k, and the others +0. -/
def gatesOf (bank : Option (List Nat)) (mode : Nat) (chosen eligible : List Num) : List Word32 :=
  let k := (chosen.filter fun s => s == .inf false).length
  if mode == 2 then chosen.map fun s => BitVec.ofNat 32 (encodeNum bank fLF32 0 rne 0 0 s).1
  else if k != 0 then
    chosen.map fun s => if s == .inf false then gateWord (.lin false 1) (.lin false (k : Rat)) else 0#32
  else
    let over_ := if mode == 0 then chosen else eligible
    let m := ((extremum true none over_.zipIdx).getD (.inf true, 0)).1
    let terms := over_.map fun s => (exp2d bank s m).1
    let den := lf32 (toLf32 (terms.foldl (fun a b => (addNum a b).1) (.zero false)))
    chosen.map fun s => gateWord (exp2d bank s m).1 den

/-- R325, R326: the plan of one token from its scores, the layer's mask and biases. -/
def planToken (bank : Option (List Nat)) (r : LayerRec) (fmt : Nat) (scores mask biases : List Byte) : TokenPlan :=
  let all := (List.range r.experts).filter fun x => mask.isEmpty || elementOf mask fB1 x == 1
  let one (x : Nat) : Num × Num :=
    ((decodeNum fmt (elementOf scores fmt x) 0 0).1, if biases.isEmpty then .zero false else lf32 (get32 biases (4 * x)))
  let nan := all.any fun x => (one x).1.isNan || (one x).2.isNan
  let eligible := all.filter fun x => (one x).1 != .inf true
  let scored := eligible.map fun x => Scored.mk x (one x).1 (sumFor bank (one x).1 (one x).2)
  let order := scored.foldl (fun l e => insertScored e l) []
  let chosen := order.take r.k
  if nan then ⟨true, [], List.replicate r.k (BitVec.ofNat 32 (lfNan fLF32)), [], eligible.length < r.k⟩
  else ⟨false, order.map fun e => e.expert, gatesOf bank r.gate (chosen.map fun e => e.score) (scored.map fun e => e.score), [],
    eligible.length < r.k⟩

/-! ## Placement (R327, R328) -/

/-- R332: a choice word. -/
def choiceWord (expert slot state : Nat) (rerouted : Bool) : Word32 :=
  BitVec.ofNat 32 (expert + slot * 2 ^ 12 + state * 2 ^ 29 + bit rerouted * 2 ^ 31)

/-- Queue and overflow counts of an expert. -/
def countsOf (cs : List (Nat × Nat × Nat)) (x : Nat) : Nat × Nat := ((cs.find? fun c => c.1 == x).map fun c => c.2).getD (0, 0)

def setCounts (cs : List (Nat × Nat × Nat)) (x : Nat) (q o : Nat) : List (Nat × Nat × Nat) :=
  (cs.filter fun c => c.1 != x) ++ [(x, q, o)]

/-- A token while choices are placed: its plan and the experts chosen or tried for it. -/
structure Placing where
  plan : TokenPlan
  seen : List Nat

/-- R328: places a choice of expert x; the word, the counts, the experts now tried. -/
def placeChoice (r : LayerRec) (cs : List (Nat × Nat × Nat)) (p : Placing) (x : Nat) :
    Word32 × List (Nat × Nat × Nat) × List Nat :=
  let c := countsOf cs x
  if c.1 < r.cap then (choiceWord x c.1 1 false, setCounts cs x (c.1 + 1) c.2, p.seen)
  else if r.ovf == 1 then
    let tries := (p.plan.order.filter fun e => !p.seen.contains e).take r.depth
    match tries.find? fun e => (countsOf cs e).1 < r.cap with
    | some e =>
      let d := countsOf cs e
      (choiceWord e d.1 1 true, setCounts cs e (d.1 + 1) d.2, p.seen ++ tries.takeWhile (fun f => f != e) ++ [e])
    | none => (choiceWord x 0 3 false, cs, p.seen ++ tries)
  else if r.ovf == 2 && c.2 < r.ovfCap then (choiceWord x (r.cap + c.2) 2 false, setCounts cs x c.1 (c.2 + 1), p.seen)
  else (choiceWord x 0 3 false, cs, p.seen)

/-- R327: rank rk of every token, in order. -/
def placeRank (r : LayerRec) (rk : Nat) (cs : List (Nat × Nat × Nat)) : List Placing → List Placing × List (Nat × Nat × Nat)
  | [] => ([], cs)
  | p :: ps =>
    match (if p.plan.nan then none else (p.plan.order.take r.k)[rk]?) with
    | none =>
      let t := placeRank r rk cs ps
      ({ p with plan := { p.plan with choices := p.plan.choices ++ [0#32] } } :: t.1, t.2)
    | some x =>
      let c := placeChoice r cs p x
      let t := placeRank r rk c.2.1 ps
      (⟨{ p.plan with choices := p.plan.choices ++ [c.1] }, c.2.2⟩ :: t.1, t.2)

/-- R327: places every choice of a batch. -/
def placeBatch (r : LayerRec) (cs : List (Nat × Nat × Nat)) (plan : List TokenPlan) : List TokenPlan × List (Nat × Nat × Nat) :=
  let start := plan.map fun p => Placing.mk p (p.order.take r.k)
  let out := (List.range r.k).foldl (fun a rk => placeRank r rk a.2 a.1) (start, cs)
  (out.1.map fun p => p.plan, out.2)

/-! ## The flow table (R332, R333, R336, R337) -/

/-- R333: the home of a key. -/
def State.flowHome (s : State) (x : RouteDesc) (token : Nat) : Nat :=
  flutter s.routing.flowKey.toNat (x.layer * 2 ^ 16 + x.batch) (x.tag * 2 ^ 24 + token) % flowEntries

def State.flowAt (s : State) (i : Nat) : Option FlowEntry := s.routing.table.find? fun f => f.index == i

def FlowEntry.keyed (f : FlowEntry) (x : RouteDesc) (token : Nat) : Bool :=
  f.corrupt != 2 && f.layer == x.layer && f.batch == x.batch && f.token == token && f.stepTag == x.tag

/-- R55: the X-die whose shard holds an entry. -/
def shardOf (p : Part) (index : Nat) : Nat :=
  let big := flowEntries % p.x
  let each := flowEntries / p.x
  if index < big * (each + 1) then index / (each + 1) else big + (index - big * (each + 1)) / each

/-- R337: the Ledger record of an uncorrectable entry. -/
def State.flowError (s : State) (index : Nat) : Nat × State :=
  s.record { cls := 0x0021, severity := 2, siteKind := 1, site := shardOf s.fuses.part index, unit := 0xFFFF, injected := false,
             payload := [6, index] }

/-- Where a search has found an entry: in the table, or in the spill list, with its predecessor in the chain. -/
inductive Found
  | table (f : FlowEntry)
  | spill (i : Nat) (prev : Option Nat) (f : FlowEntry) (link : Nat)
  | missing

/-- How a search went: what it found, entries examined, the record of an error met. -/
structure Search where
  found  : Found
  probes : Nat
  error  : Option Nat

/-- R333, R337: the eight entries of a window, in order. -/
def State.probe (s : State) (x : RouteDesc) (token : Nat) : List Nat → Search → Search × State
  | [], r => (r, s)
  | i :: is, r =>
    let r := { r with probes := r.probes + 1 }
    match s.flowAt (i % flowEntries) with
    | none => s.probe x token is r
    | some f =>
      if f.keyed x token then
        if f.corrupt == 1 then
          let e := s.flowError f.index
          (⟨.table f, r.probes, some e.1⟩, e.2)
        else (⟨.table f, r.probes, none⟩, s)
      else if f.corrupt == 2 then
        let e := s.flowError f.index
        e.2.probe x token is { r with error := some e.1 }
      else s.probe x token is r

def noLink : Nat := 0xFFFFFFFF

/-- R337: what an error known to lie in a spill entry does to a search that meets it: in its key or LINK words it ends the chain; in its
choice words, or the word after them, the entry is found, and cannot be read. -/
def State.spillError (s : State) (i : Nat) : Option Bool := (s.routing.spillBad.find? fun b => b.1 == i).map fun b => b.2

/-- R333, R337: follows a chain of the spill list; fuel bounds it. -/
def State.chase (s : State) (rd : Reader) (x : RouteDesc) (token : Nat) : Nat → Nat → Option Nat → Search → Except Halt Search × State
  | 0, _, _, r => (.ok r, s)
  | fuel + 1, i, prev, r =>
    let lost (s : State) : Except Halt Search × State :=
      let e := s.flowError i
      (.ok { r with probes := r.probes + 1, error := some e.1 }, e.2)
    if i == noLink then (.ok r, s)
    else if s.spillError i == some true then lost s
    else
      match s.fetchDevice rd 0 (s.routing.spillVa + headBytes + 32 * i) 32 with
      | (.error (.dead _), s) => lost s
      | (.error h, s) => (.error h, s)
      | (.ok b, s) =>
        let f := flowOf i b
        let r := { r with probes := r.probes + 1 }
        if !f.keyed x token then s.chase rd x token fuel (get32 b 0x1C) (some i) r
        else if s.spillError i == some false then
          let e := s.flowError i
          (.ok { r with found := .spill i prev { f with corrupt := 1 } (get32 b 0x1C), error := some e.1 }, e.2)
        else (.ok { r with found := .spill i prev f (get32 b 0x1C), error := none }, s)

/-- R333: reads the head of a chain; while the spill list holds nothing every chain is empty (DESIGN CHOICE, log 36). -/
def State.chainHead (s : State) (rd : Reader) (chain : Nat) : Except Halt (Nat × Option Nat) × State :=
  if s.routing.spillUsed.isEmpty then (.ok (noLink, none), s)
  else
    match s.fetchDevice rd 0 (s.routing.spillVa + 4 * chain) 4 with
    | (.ok b, s) => (.ok (leNat b, none), s)
    | (.error (.dead _), s) =>
      let e := s.flowError chain
      (.ok (noLink, some e.1), e.2)
    | (.error h, s) => (.error h, s)

/-- R334: the entry of a token that found neither its window nor the spill list free (DESIGN CHOICE, log 36). -/
def State.displaced (s : State) (x : RouteDesc) (token : Nat) : Option FlowEntry :=
  s.routing.table.find? fun f => f.corrupt != 2 && f.keyed x token

/-- R333: searches for a token's entry: its window, its chain, and then where no place was left there. -/
def State.search (s : State) (rd : Reader) (x : RouteDesc) (token : Nat) : Except Halt Search × State :=
  let h := s.flowHome x token
  match s.probe x token ((List.range 8).map (h + ·)) ⟨.missing, 0, none⟩ with
  | (r, s) =>
    match r.found, s.displaced x token with
    | .missing, none =>
      (match s.chainHead rd (h / 8) with
      | (.error e, s) => (.error e, s)
      | (.ok (i, bad), s) => s.chase rd x token (s.routing.spillUsed.length + 1) i none
          { r with error := match bad with | some e => some e | none => r.error })
    | .missing, some f =>
      if f.corrupt == 1 then
        let e := s.flowError f.index
        (.ok ⟨.table f, r.probes + 1, some e.1⟩, e.2)
      else (.ok ⟨.table f, r.probes + 1, none⟩, s)
    | _, _ => (.ok r, s)

/-- The entry of a token that has been planned. -/
def entryFor (x : RouteDesc) (k index token : Nat) (p : TokenPlan) : FlowEntry :=
  ⟨index, x.layer, x.batch, token, x.tag, p.choices ++ List.replicate (4 - p.choices.length) 0#32, p.nan, k, 0⟩

/-- Unused spill entry: the first at or after a free place (log 36). -/
def State.unusedSpill (s : State) : Option Nat :=
  let n := s.routing.spillEntries
  if n == 0 then none
  else
    let start := (Config.freeValue s.freeCtr).toNat % n
    ((List.range n).map fun i => (start + i) % n).find? fun i => !s.routing.spillUsed.contains i

def State.store4 (s : State) (rd : Reader) (va v : Nat) : State := s.storeAt rd va (leBytes 4 v)

/-- The first FREE table entry from a place on. -/
def State.freeFlow (s : State) (h n : Nat) : Option Nat :=
  ((List.range n).find? fun i => (s.flowAt ((h + i) % flowEntries)).isNone).map fun i => (h + i) % flowEntries

/-- An entry takes a place of the table. -/
def State.addFlow (s : State) (f : FlowEntry) : State := { s with routing := { s.routing with table := s.routing.table ++ [f] } }

/-- R333: inserts an entry into spill entry i, at the head of a chain. -/
def State.insertSpill (s : State) (rd : Reader) (chain i : Nat) (f : FlowEntry) : Except Halt (Nat × Bool) × State :=
  let base := s.routing.spillVa
  match s.chainHead rd chain with
  | (.error e, s) => (.error e, s)
  | (.ok (old, _), s) =>
    match checkAll [s.checkDevice 0 base headBytes, s.checkDevice 0 (base + headBytes + 32 * i) 32] with
    | .error e => (.error e, s)
    | .ok _ =>
      let s := if s.routing.spillUsed.isEmpty then s.storeAt rd base (List.replicate headBytes 0xFF#8) else s
      let s := (s.storeAt rd (base + headBytes + 32 * i) (f.bytes old)).store4 rd (base + 4 * chain) i
      (.ok (9, true), { s with
        routing := { s.routing with spillUsed := insertNat i s.routing.spillUsed }
        freeCtr := s.freeCtr + 1 })

/-- R333, R334: inserts an entry; how many entries were examined, and whether it went to the spill list. Where its window and the spill list
have no place, it goes to the next FREE entry of the table: FREE, reserved before, says that there is one (DESIGN CHOICE, log 36). -/
def State.insertFlow (s : State) (rd : Reader) (x : RouteDesc) (k token : Nat) (p : TokenPlan) : Except Halt (Nat × Bool) × State :=
  let h := s.flowHome x token
  let table (i : Nat) : Except Halt (Nat × Bool) × State :=
    (.ok ((i + flowEntries - h) % flowEntries + 1, false), s.addFlow (entryFor x k i token p))
  match s.freeFlow h 8 with
  | some i => table i
  | none =>
    match s.unusedSpill with
    | some i => s.insertSpill rd (h / 8) i (entryFor x k i token p)
    | none =>
      match s.freeFlow h flowEntries with
      | some i => table i
      | none => (.ok (8, false), s)

/-! ## ROUTE -/

def State.router? (s : State) (x : Nat) : Option RoutingEngine := s.routers[x]?

def State.setRouting (s : State) (x : Nat) (op : Option RoutingOp) : State :=
  { s with routers := s.routers.modify x fun r => { r with active := op } }

def newRoutingOp (w : Work) : RoutingOp :=
  { work := w, phase := 2, bank := false, next := 0, plan := [], routed := 0, overflowed := 0, dropped := 0, rerouted := 0,
    nanTokens := 0, maxLoad := 0, missing := 0, spilled := 0, probes := 0, errorRec := none, suspended := none, ended := none }

def State.routeHalt (s : State) (xd : Nat) (op : RoutingOp) (h : Halt) : State :=
  let r := s.haltEnd h
  r.2.setRouting xd (some { op with suspended := r.1.1, ended := r.1.2 })

/-- The counts of (layer, step tag). -/
def State.routeCounts (s : State) (x : RouteDesc) : RouteCounts :=
  (s.routing.counts.find? fun c => c.layer == x.layer && c.stepTag == x.tag).getD ⟨x.layer, x.tag, [], []⟩

def State.setRouteCounts (s : State) (c : RouteCounts) : State :=
  { s with routing := { s.routing with
    counts := (s.routing.counts.filter fun d => !(d.layer == c.layer && d.stepTag == c.stepTag)) ++ [c] } }

/-- R325: reads token t's scores, the mask and the biases, and plans it. -/
def State.readToken (s : State) (op : RoutingOp) (x : RouteDesc) (r : LayerRec) (t : Nat) : Except Halt TokenPlan × State :=
  let rd := routingReader r.home
  match s.fetchDevice rd 0 (x.scores + t * x.pitch) (ceilDiv (r.experts * fmtWidth x.fmt) 8) with
  | (.error h, s) => (.error h, s)
  | (.ok scores, s) =>
    match (if r.bias == 0 then (.ok [], s) else s.fetchDevice rd 1 r.bias (4 * r.experts)) with
    | (.error h, s) => (.error h, s)
    | (.ok biases, s) =>
      match (if r.mask == 0 then (.ok [], s) else s.fetchDevice rd 2 r.mask (ceilDiv r.experts 8)) with
      | (.error h, s) => (.error h, s)
      | (.ok mask, s) =>
        (.ok (planToken (s.tables.antilog.contents op.bank) r x.fmt scores mask biases), s)

/-- The state of a choice word: 1 PLACED, 2 OVERFLOW, 3 DROPPED. -/
def choiceState (w : Word32) : Nat := field w.toNat 30 29

/-- R330: the row index of a choice, or 0xFFFFFFFF. -/
def rowIndex (r : LayerRec) (w : Word32) : Nat :=
  if choiceState w == 1 || choiceState w == 2 then field w.toNat 11 0 * r.rows + field w.toNat 28 12 else 0xFFFFFFFF

/-- R330: what token t's outputs write: DETAIL, address, word. -/
def tokenWrites (x : RouteDesc) (r : LayerRec) (t : Nat) (p : TokenPlan) : List (Nat × Nat × Nat) :=
  (List.range r.k).flatMap fun i =>
    let w := p.choices.getD i 0#32
    let row := rowIndex r w
    let gate := if p.nan then lfNan fLF32 else if row == 0xFFFFFFFF then 0 else (p.gates.getD i 0#32).toNat
    (if row == 0xFFFFFFFF then [] else [(3, r.dispatch + 4 * row, x.base + t), (4, r.dgate + 4 * row, gate)])
      ++ [(6, x.combine + 4 * (t * r.k + i), row), (7, x.cgate + 4 * (t * r.k + i), gate)]

/-- R330, R333: token t's outputs and flow entry. -/
def State.writeToken (s : State) (op : RoutingOp) (x : RouteDesc) (r : LayerRec) : Except Halt RoutingOp × State :=
  let t := op.next
  let p := op.plan.getD t ⟨true, [], [], [], false⟩
  let ws := tokenWrites x r t p
  match checkAll (ws.map fun w => s.checkDevice w.1 w.2.1 4) with
  | .error h => (.error h, s)
  | .ok _ =>
    match s.insertFlow (routingReader r.home) x r.k (x.base + t) p with
    | (.error h, s) => (.error h, s)
    | (.ok (probes, spilled), s) =>
      let s := ws.foldl (fun s w => s.store4 (routingReader r.home) w.2.1 w.2.2) s
      (.ok { op with next := t + 1, probes := op.probes + probes, spilled := op.spilled + bit spilled }, s)

/-- R330: COUNTS, after the batch. -/
def State.writeCounts (s : State) (x : RouteDesc) (r : LayerRec) : Except Halt Unit × State :=
  let cs := (s.routeCounts x).counts
  match s.checkDevice 5 r.counts (8 * r.experts) with
  | .error h => (.error h, s)
  | .ok _ =>
    (.ok (), s.storeAt (routingReader r.home) r.counts ((List.range r.experts).flatMap fun e =>
      (let c := countsOf cs e; leBytes 4 c.1 ++ leBytes 4 c.2)))

/-- R339: the counts of the status record, once every choice is placed. -/
def RoutingOp.tally (op : RoutingOp) : RoutingOp :=
  let ws := op.plan.flatMap fun p => p.choices
  let n (st : Nat) : Nat := (ws.filter fun w => choiceState w == st).length
  { op with
    routed := n 1
    overflowed := n 2
    dropped := n 3
    rerouted := (ws.filter fun w => w.getLsbD 31).length
    nanTokens := (op.plan.filter fun p => p.nan).length
    missing := (op.plan.filter fun p => p.short).length }

/-- R327 to R334: goes on with a ROUTE that has begun; fuel bounds its tokens, read and written. -/
def State.routeRun (xd : Nat) (x : RouteDesc) (r : LayerRec) : Nat → RoutingOp → State → State
  | 0, op, s => s.setRouting xd (some op)
  | fuel + 1, op, s =>
    if op.phase == 0 then
      if op.next < x.tokens then
        match s.readToken op x r op.next with
        | (.error h, s) => s.routeHalt xd op h
        | (.ok p, s) => State.routeRun xd x r fuel { op with plan := op.plan ++ [p], next := op.next + 1 } s
      else
        let c := s.routeCounts x
        let b := placeBatch r c.counts op.plan
        let s := s.setRouteCounts { c with counts := b.2 }
        State.routeRun xd x r fuel ({ op with phase := 1, next := 0, plan := b.1 }.tally) s
    else if op.next < x.tokens then
      match s.writeToken op x r with
      | (.error h, s) => s.routeHalt xd op h
      | (.ok op, s) => State.routeRun xd x r fuel op s
    else
      match s.writeCounts x r with
      | (.error h, s) => s.routeHalt xd op h
      | (.ok _, s) => s.setRouting xd (some { op with phase := 3, ended := some ⟨stOk, 0⟩ })

def State.routeGo (s : State) (xd : Nat) (op : RoutingOp) : State :=
  let x := RouteDesc.of op.work.desc
  match s.layerRecord x.layer with
  | none => s.setRouting xd (some { op with ended := some ⟨0x0111, 0⟩ })
  | some d => s.routeRun xd x (LayerRec.of d) (2 * x.tokens + 2) op

/-- R329: the batch has been routed and not released. -/
def State.flowExists (s : State) (x : RouteDesc) : Bool :=
  s.validFlows.any fun f => f.corrupt != 2 && f.layer == x.layer && f.batch == x.batch && f.stepTag == x.tag

/-- R329: the batch before has not ended. A batch that has itself been routed before, and released, belongs to a new step, whose batches
start with the ROUTE of BATCH 0 (DEDUCED, log 36). -/
def State.mustWait (s : State) (x : RouteDesc) : Bool :=
  let ended := (s.routeCounts x).batches
  x.batch != 0 && (!ended.contains (x.batch - 1) || ended.contains x.batch)

/-- R327, R334: a ROUTE that need not wait begins. -/
def State.routeBegin (s : State) (xd : Nat) (w : Work) : State :=
  let x := RouteDesc.of w.desc
  let fail (st : Nat) : State := s.setRouting xd (some { newRoutingOp w with ended := some ⟨st, 0⟩ })
  if (s.layerRecord x.layer).isNone then fail 0x0111
  else if s.flowExists x then fail 0x0113
  else if s.routing.free < x.tokens then fail 0x0110
  else
    let s := { s with routing := { s.routing with free := s.routing.free - x.tokens } }
    let s := if x.batch == 0 then s.setRouteCounts ⟨x.layer, x.tag, [], []⟩ else s
    s.routeGo xd { newRoutingOp w with phase := 0, bank := s.tables.antilog.bankOf (.routing xd) }

/-- E of the layer that a descriptor names. -/
def State.expertsOf (s : State) (d : List Byte) : Nat := ((s.layerRecord (get16 d 4)).map fun r => get16 r 4).getD 0

/-- R320, R321, R329: the descriptor at the head of the queue leaves it. -/
def State.routingStart (s : State) (xd : Nat) (r : RoutingEngine) (w : Work) (begin_ : State → State) : State :=
  let s := { s with routers := s.routers.modify xd fun r => { r with queue := r.queue.drop 1 } }
  let x := RouteDesc.of w.desc
  let fail (st detail : Nat) : State := s.setRouting xd (some { newRoutingOp w with ended := some ⟨st, detail⟩ })
  match routeBad w.desc (s.expertsOf w.desc) with
  | some f => fail stMalformed f
  | none =>
    if (s.layerRecord x.layer).isNone then fail 0x0111 0
    else if x.mode == 0 then
      if s.flowExists x then fail 0x0113 0
      else if s.mustWait x then
        if r.hold.length < 16 then { s with routers := s.routers.modify xd fun r => { r with hold := r.hold ++ [w] } }
        else fail 0x0114 0
      else begin_ s
    else begin_ s

/-- The command of a descriptor's mode starts it, or goes on with it. A descriptor that is no routing descriptor, or whose MODE is
reserved, leaves the queue with ROUTE. -/
def State.routingCommand (s : State) (xd : Nat) (mode : Nat) (begin_ : Work → State → State) (more : RoutingOp → State → State) : State :=
  let is (d : List Byte) : Bool :=
    let m := if descKind d != 4 || field (get32 d 0) 5 4 == 3 then 0 else field (get32 d 0) 5 4
    m == mode
  match s.router? xd with
  | none => s
  | some r =>
    match r.active with
    | some op => if is op.work.desc && op.suspended.isNone && op.ended.isNone && s.enginesRun then more op s else s
    | none =>
      match r.queue with
      | [] => s
      | w :: _ =>
        if is w.desc && s.enginesRun && s.mayStart w then s.routingStart xd r w (begin_ w) else s

/-- R319 to R334: ROUTE. -/
def execRoute (xdie : Nat) (s : State) : Host.Outcome State Fault Refusal := s.after <|
  .next (s.routingCommand xdie 0 (fun w s => s.routeBegin xdie w) (fun op s => s.routeGo xdie op))

/-- R329: a held ROUTE whose predecessor has ended begins. -/
def execRouteHoldRelease (xdie : Nat) (s : State) : Host.Outcome State Fault Refusal := s.after <|
  match s.router? xdie with
  | none => .next s
  | some r =>
    match r.hold.find? fun w => !s.mustWait (RouteDesc.of w.desc) with
    | none => .next s
    | some w =>
      if r.active.isSome || !s.enginesRun then .next s
      else
        let s := { s with routers := s.routers.modify xdie fun r => { r with hold := r.hold.filter fun v => v.uid != w.uid } }
        .next (s.routeBegin xdie w)

/-! ## RECALL (R335, R337) -/

/-- R335: token t: its COMBINE words; missing where no entry, or one that cannot be read, is found. -/
def State.recallToken (s : State) (op : RoutingOp) (x : RouteDesc) (r : LayerRec) : Except Halt RoutingOp × State :=
  let t := op.next
  match s.search (routingReader r.home) x (x.base + t) with
  | (.error h, s) => (.error h, s)
  | (.ok f, s) =>
    let entry := match f.found with
      | .table e => some (e, false)
      | .spill _ _ e _ => some (e, true)
      | .missing => none
    let k := match entry with
      | some (e, _) => if e.corrupt == 0 then e.k else r.k
      | none => r.k
    let va := x.combine + 4 * (t * k)
    match s.checkDevice 6 va (4 * k) with
    | .error h => (.error h, s)
    | .ok _ =>
      let words := (List.range k).map fun i =>
        match entry with
        | some (e, _) => if e.nan || e.corrupt == 1 then 0xFFFFFFFF else rowIndex r (e.choices.getD i 0#32)
        | none => 0xFFFFFFFF
      let whole := match entry with
        | some (e, _) => e.corrupt == 0
        | none => false
      (.ok { op with
          next := t + 1
          routed := op.routed + bit entry.isSome
          missing := op.missing + bit (!whole)
          spilled := op.spilled + bit (match entry with | some (_, sp) => sp | none => false)
          probes := op.probes + f.probes
          errorRec := match f.error with | some n => (if whole then op.errorRec else some n) | none => op.errorRec },
        s.storeAt (routingReader r.home) va (words.flatMap (leBytes 4)))

/-- Tokens of a RECALL, until it stops or ends. -/
def State.recallRun (xd : Nat) (x : RouteDesc) (r : LayerRec) : Nat → RoutingOp → State → State
  | 0, op, s =>
    let e : Ending := match op.errorRec with
      | some n => ⟨stDeviceError, n % 65536⟩
      | none => if op.missing == 0 then ⟨stOk, 0⟩ else ⟨0x0112, 0⟩
    s.setRouting xd (some { op with ended := some e })
  | n + 1, op, s =>
    match s.recallToken op x r with
    | (.error h, s) => s.routeHalt xd op h
    | (.ok op, s) => State.recallRun xd x r n op s

def State.recallGo (s : State) (xd : Nat) (op : RoutingOp) : State :=
  let x := RouteDesc.of op.work.desc
  match s.layerRecord x.layer with
  | none => s.setRouting xd (some { op with ended := some ⟨0x0111, 0⟩ })
  | some d => s.recallRun xd x (LayerRec.of d) (x.tokens - op.next) op

def execRecall (xdie : Nat) (s : State) : Host.Outcome State Fault Refusal := s.after <|
  .next (s.routingCommand xdie 1 (fun w s => s.recallGo xdie (newRoutingOp w)) (fun op s => s.recallGo xdie op))

/-! ## RELEASE (R336, R337) -/

/-- R336: the entry of a token is FREE. -/
def State.releaseToken (s : State) (op : RoutingOp) (x : RouteDesc) : Except Halt RoutingOp × State :=
  let token := x.base + op.next
  let rd := routingReader (((s.layerRecord x.layer).map LayerRec.of).elim 0 fun r => r.home)
  match s.search rd x token with
  | (.error h, s) => (.error h, s)
  | (.ok f, s) =>
    let next := { op with next := op.next + 1, probes := op.probes + f.probes }
    match f.found with
    | .missing => (.ok { next with missing := op.missing + 1 }, s)
    | .table e =>
      (.ok { next with routed := op.routed + 1 },
        { s with routing := { s.routing with
          table := s.routing.table.filter fun g => g.index != e.index
          free := s.routing.free + 1 } })
    | .spill i prev _ link =>
      let base := s.routing.spillVa
      let at_ := match prev with
        | some j => base + headBytes + 32 * j + 0x1C
        | none => base + 4 * (s.flowHome x token / 8)
      match checkAll [s.checkDevice 0 at_ 4, s.checkDevice 0 (base + headBytes + 32 * i) 32] with
      | .error h => (.error h, s)
      | .ok _ =>
        let s := (s.store4 rd at_ link).storeAt rd (base + headBytes + 32 * i) (zeros 32)
        (.ok { next with routed := op.routed + 1, spilled := op.spilled + 1 },
          { s with routing := { s.routing with
            spillUsed := s.routing.spillUsed.filter fun j => j != i
            spillBad := s.routing.spillBad.filter fun b => b.1 != i
            free := s.routing.free + 1 } })

def State.releaseRun (xd : Nat) (x : RouteDesc) : Nat → RoutingOp → State → State
  | 0, op, s => s.setRouting xd (some { op with ended := some ⟨stOk, 0⟩ })
  | n + 1, op, s =>
    match s.releaseToken op x with
    | (.error h, s) => s.routeHalt xd op h
    | (.ok op, s) => State.releaseRun xd x n op s

def State.releaseGo (s : State) (xd : Nat) (op : RoutingOp) : State :=
  let x := RouteDesc.of op.work.desc
  s.releaseRun xd x (x.tokens - op.next) op

def execRelease (xdie : Nat) (s : State) : Host.Outcome State Fault Refusal := s.after <|
  .next (s.routingCommand xdie 2 (fun w s => s.releaseGo xdie (newRoutingOp w)) (fun op s => s.releaseGo xdie op))

/-! ## The end (R334, R339) -/

/-- R339: the status record. HOLD_NS and ELAPSED_NS are free values (log 11). -/
def routingRecord (op : RoutingOp) (e : Ending) (times : List Word64) : List Byte :=
  let w (n : Nat) : List Byte := leBytes 4 (min n 0xFFFFFFFF)
  leBytes 4 (e.status + e.detail % 32768 * 2 ^ 16 + 2 ^ 31) ++ w op.routed ++ w op.overflowed ++ w op.dropped ++ w op.rerouted
    ++ w op.nanTokens ++ w op.maxLoad ++ w op.missing ++ leBytes 8 op.spilled ++ leBytes 8 op.probes
    ++ times.flatMap fun t => leBytes 8 t.toNat

/-- R339: MAX_LOAD: the largest queue count of the layer's step. -/
def State.maxLoad (s : State) (x : RouteDesc) : Nat := ((s.routeCounts x).counts.map fun c => c.2.1).foldl max 0

/-- R329, R334: a ROUTE that has begun returns what it did not use, and its successor may begin. -/
def State.routeSettle (s : State) (op : RoutingOp) : State :=
  let x := RouteDesc.of op.work.desc
  if op.phase == 2 then s
  else
    let used := if op.phase == 0 then 0 else min op.next x.tokens
    let c := s.routeCounts x
    { s with routing := { s.routing with free := s.routing.free + (x.tokens - used) } }.setRouteCounts
      { c with batches := insertNat x.batch c.batches }

/-- The active descriptor leaves the engine and completes. -/
def State.routingDone (s : State) (xdie : Nat) (op : RoutingOp) (y : Ending) : State :=
  ((s.setRouting xdie none).routeSettle op).endWork op.work y.status y.detail (BitVec.ofNat 32 op.routed) (BitVec.ofNat 32 op.dropped)

/-- R230, R339: the end of the active routing descriptor. -/
def execRoutingEnd (xdie : Nat) (s : State) : Host.Outcome State Fault Refusal := s.after <|
  match (s.router? xdie).bind fun r => r.active with
  | none => .next s
  | some op =>
    match op.ended, op.suspended with
    | some x, none =>
      let f := s.freshes 2
      let op := { op with maxLoad := s.maxLoad (RouteDesc.of op.work.desc) }
      (match f.2.close (routingReader xdie) (.routing xdie) (RouteDesc.of op.work.desc).status x (routingRecord op x f.1) with
      | .waits y s => .next (s.setRouting xdie (some { op with suspended := some y }))
      | .held => .next s
      | .done _ y s => .next (s.routingDone xdie op y))
    | _, _ => .next s

end Sys2Proof.Machine
end

