-- ==== Sys2Proof/Machine/Threads.lean ====
section
/-! DEFINITION. The hardware threads of the control cores (R341 to R347, R362 to R366). -/

namespace Sys2Proof.Machine

/-- R370: REQ_KIND of a thread, on its C-die. -/
def threadReader (t : ThreadId) : Reader := ⟨0, none, some (.c, t.at_.cdie)⟩

/-! ## The end of a thread (R230, R347) -/

/-- R347: the 32 bytes of the status record; CYCLES is a free value (log 11). -/
def threadRecord (status detail : Nat) (exit cycles : Word64) : List Byte :=
  leBytes 4 (status + detail % 32768 * 2 ^ 16 + 2 ^ 31) ++ zeros 4 ++ leBytes 8 exit.toNat ++ leBytes 8 cycles.toNat ++ zeros 8

/-- The thread is IDLE again, and its item completes. -/
def State.threadGone (s : State) (t : ThreadId) (th : Thread) (status detail : Nat) (exit : Word64) : State :=
  (s.modThread t fun th => { th with
    state := .idle
    wait := .none
    suspended := none
    ending := none
    issued := []
    summaries := []
    writes := [] }).endItem th.queue th.uid status detail (exit.setWidth 32) ((exit >>> 32).setWidth 32)

/-- R230, R347: writes the record of a thread that has ended, and completes its item. R364: not before its remote writes are acknowledged;
R80: nor while the record may not go out. -/
def State.threadFinish (s : State) (t : ThreadId) : State :=
  match s.thread? t with
  | none => s
  | some th =>
    match th.ending with
    | none => s
    | some (status, detail, exit) =>
      if !th.writes.isEmpty then s.modThread t fun th => { th with state := .waiting }
      else if th.statusVa == 0 then s.threadGone t th status detail exit
      else if s.recordHeld th.statusVa 32 then s.modThread t fun th => { th with state := .waiting }
      else
        let f := s.fresh
        match f.2.writeStatus (threadReader t) (.thread t) th.statusVa (threadRecord status detail exit f.1) with
        | (.ok, s') => s'.threadGone t th status detail exit
        | (.failed k, s') => s'.threadGone t th stDeviceError (k % 65536) 0#64
        | (.stop c a, s') =>
          if suspends c then
            s'.modThread t fun th => { th with state := .suspended, suspended := some (suspension c .write a) }
          else
            let e := s'.faultEnding c a
            e.2.threadGone t th e.1.status e.1.detail 0#64

/-- A thread ends. -/
def State.threadEnd (s : State) (t : ThreadId) (status detail : Nat) (exit : Word64) : State :=
  (s.modThread t fun th => { th with wait := .none, suspended := none, ending := some (status, detail, exit) }).threadFinish t

/-- R347: DETAIL of ILLEGAL_INSTRUCTION and MISALIGNED: bits [16:2] of the program counter. -/
def Thread.pcDetail (th : Thread) : Nat := field th.pc.toNat 16 2

def stIllegal : Nat := 0x0120
def stMisaligned : Nat := 0x0121

/-- R367, R373, R389: a thread meets a fault, or an uncorrectable error, at its instruction. -/
def State.threadStop (s : State) (t : ThreadId) (acc : Acc) (g : Got) : State :=
  match g with
  | .stop c a =>
    if suspends c then
      (s.modThread t fun th => { th with state := .suspended, wait := .none, suspended := some (suspension c acc a) }).modCluster t.at_
        fun k => { k with suspensions := bump k.suspensions 1 }
    else
      let e := s.faultEnding c a
      e.2.threadEnd t e.1.status e.1.detail 0#64
  | .dead r => s.threadEnd t stDeviceError (r % 65536) 0#64
  | .bytes _ => s
  | .away _ => s

/-! ## One instruction -/

/-- R342: the thread whose turn it is: URGENT before NORMAL, and within a priority in turn after the thread that last issued. -/
def Cluster.turn (c : Cluster) : Option Nat :=
  let runs (urgent : Bool) (i : Nat) : Bool :=
    match c.threads[i]? with
    | some th => th.state == .running && th.urgent == urgent
    | none => false
  let order := (List.range 16).map fun i => (c.lastIssued + 1 + i) % 16
  match order.find? (runs true) with
  | some i => some i
  | none => order.find? (runs false)

/-- R342, R346: the thread whose turn it is fetches and executes an instruction; of any other thread that is not this event (log 5). A fetch
from an address that is not 4-byte aligned is an access not aligned to its size (DEDUCED, log 7). -/
def State.onThread (s : State) (t : ThreadId) (body : Thread → State → State) : State :=
  match s.thread? t with
  | none => s
  | some th =>
    if (s.cluster? t.at_).bind Cluster.turn != some t.thread then s
    else
      let s := s.modCluster t.at_ fun c => { c with lastIssued := t.thread }
      if th.pc.toNat % 4 != 0 then s.threadEnd t stMisaligned th.pcDetail 0#64
      else
        let g := s.vread (threadReader t) .device .fetch th.pc.toNat 4
        match g.1 with
        | .bytes _ => body th g.2
        | g1 => g.2.threadStop t .fetch g1

def Thread.reg (th : Thread) (r : Nat) : Word64 := th.regs.toList.getD r 0#64

def Thread.setReg (th : Thread) (r : Nat) (v : Word64) : Thread :=
  if h : r < 32 then { th with regs := th.regs.set r v h } else th

/-- The next instruction. -/
def Thread.advance (th : Thread) : Thread := { th with pc := th.pc + 4#64 }

/-- R282: registers whose summary has not been written. -/
def Thread.awaits (th : Thread) (rs : List Nat) : Option Nat := rs.find? fun r => th.summaries.any fun p => p.1 == r

/-- The thread waits. -/
def State.threadWait (s : State) (t : ThreadId) (w : ThreadWait) : State := s.modThread t fun th => { th with state := .waiting, wait := w }

/-- R282, R342: an instruction that names a register whose summary is not written waits. -/
def State.withRegs (s : State) (t : ThreadId) (th : Thread) (rs : List Nat) (body : State → State) : State :=
  match th.awaits rs with
  | some r => s.threadWait t (.summary r)
  | none => body s

/-- An instruction on registers alone. -/
def State.onRegs (s : State) (t : ThreadId) (rs : List Nat) (f : Thread → Thread) : State :=
  s.onThread t fun th s => s.withRegs t th rs fun s => s.modThread t fun th => f th

/-! ## Integer, shift, compare, branch and LF32 instructions (R346, log 7) -/

def aluValue (op : AluOp) (a b : Word64) : Word64 :=
  match op with
  | .add => a + b
  | .sub => a - b
  | .mul => a * b
  | .and => a &&& b
  | .or => a ||| b
  | .xor => a ^^^ b
  | .shl => a <<< (b.toNat % 64)
  | .shr => a >>> (b.toNat % 64)
  | .sar => a.sshiftRight (b.toNat % 64)
  | .cmpEq => if a == b then 1#64 else 0#64
  | .cmpLt => if a.slt b then 1#64 else 0#64
  | .cmpLtu => if a.ult b then 1#64 else 0#64

/-- LF32 arithmetic, rounded to nearest (log 7). -/
def lfValue (op : LfOp) (a b : Word64) : Word64 :=
  let x := lf32 (a.toNat % 2 ^ 32)
  let y := lf32 (b.toNat % 2 ^ 32)
  let r := match op with
    | .add => (addNum x y).1
    | .sub => (addNum x y.negate).1
    | .mul => (mulNum x y).1
  BitVec.ofNat 64 (toLf32 r)

def branchTaken (c : BranchCond) (a b : Word64) : Bool :=
  match c with
  | .always => true
  | .eq => a == b
  | .ne => a != b
  | .lt => a.slt b
  | .ltu => a.ult b

def scalarRegs : ScalarOp → List Nat
  | .alu _ rd ra rb => [rd, ra, rb]
  | .const rd _ => [rd]
  | .lf _ rd ra rb => [rd, ra, rb]
  | .branch _ ra rb _ => [ra, rb]

def scalarEffect (op : ScalarOp) (th : Thread) : Thread :=
  match op with
  | .alu o rd ra rb => (th.setReg rd (aluValue o (th.reg ra) (th.reg rb))).advance
  | .const rd v => (th.setReg rd v).advance
  | .lf o rd ra rb => (th.setReg rd (lfValue o (th.reg ra) (th.reg rb))).advance
  | .branch c ra rb target => if branchTaken c (th.reg ra) (th.reg rb) then { th with pc := target } else th.advance

def execScalarInstruction (t : ThreadId) (op : ScalarOp) (s : State) : Host.Outcome State Fault Refusal := s.after <|
  .next (s.onRegs t (scalarRegs op) (scalarEffect op))

/-- R41: reads the cluster's control-core cycle counter. -/
def execCyc (t : ThreadId) (rd : Nat) (s : State) : Host.Outcome State Fault Refusal := s.after <|
  .next (s.onThread t fun th s => s.withRegs t th [rd] fun s =>
    let f := s.ticked 0 t.at_.cdie t.at_.cluster
    f.2.modThread t fun th => (th.setReg rd f.1).advance)

/-! ## Loads (R342, R346, R362) -/

/-- R346: a load starts: an access not aligned to its size ends the thread; otherwise the thread waits for the data. R80, R81, R477: an access
that may not go out yet waits until it may. -/
def State.load (s : State) (t : ThreadId) (rd ra width : Nat) : State :=
  s.onThread t fun th s => s.withRegs t th [rd, ra] fun s =>
    let va := th.reg ra
    if va.toNat % width != 0 then s.threadEnd t stMisaligned th.pcDetail 0#64
    else
      match s.translateSpan .device .read va.toNat width with
      | .error (c, a) => s.threadStop t .read (.stop c a)
      | .ok ts =>
        match awayOf ts with
        | some (.host a) =>
          if s.canMaster && !s.readsFull then
            let u := s.hostAsk va.toNat a width (.thread t)
            u.2.threadWait t (.remote rd width u.1)
          else s.threadWait t .outlet
        | some (.remote k a) =>
          (match s.ask 1 k a width width [] (.thread t) va.toNat with
          | (.now b, s') =>
            s'.modThread t fun th => (th.setReg rd (BitVec.ofNat 64 (leNat (b.take width)))).advance
          | (.later tag, s') => s'.threadWait t (.remote rd width tag)
          | (.failed r, s') => s'.threadEnd t stDeviceError (r % 65536) 0#64
          | (.busy, s') => s'.threadWait t .outlet)
        | _ => s.threadWait t (.load rd width va)

def execLdB (t : ThreadId) (rd ra : Nat) (s : State) : Host.Outcome State Fault Refusal := s.after <| .next (s.load t rd ra 1)
def execLdH (t : ThreadId) (rd ra : Nat) (s : State) : Host.Outcome State Fault Refusal := s.after <| .next (s.load t rd ra 2)
def execLdW (t : ThreadId) (rd ra : Nat) (s : State) : Host.Outcome State Fault Refusal := s.after <| .next (s.load t rd ra 4)
def execLdD (t : ThreadId) (rd ra : Nat) (s : State) : Host.Outcome State Fault Refusal := s.after <| .next (s.load t rd ra 8)

/-- A waiting thread goes on with the next instruction. -/
def Thread.proceed (th : Thread) : Thread := { th.advance with state := .running, wait := .none }

/-- R362: a load's data returns, zero-extended. -/
def execLoadDataReturn (t : ThreadId) (s : State) : Host.Outcome State Fault Refusal := s.after <|
  match s.thread? t with
  | none => .next s
  | some th =>
    if th.state != .waiting then .next s
    else
      match th.wait with
      | .load rd width va =>
        let g := s.vread (threadReader t) .device .read va.toNat width
        (match g.1 with
        | .bytes b => .next (g.2.modThread t fun th => (th.setReg rd (BitVec.ofNat 64 (leNat b))).proceed)
        | g1 => .next (g.2.threadStop t .read g1))
      | _ => .next s

/-- R346: the word that WAIT watches has been read: the thread goes on, or waits on. -/
def State.watched (s : State) (t : ThreadId) (va value : Word64) (cycles : Option Nat) (now : Word64) : State :=
  if now == value then s.threadWait t (.word va value cycles none) else s.modThread t Thread.proceed

/-- Data from the host or a peer arrives for a waiting thread; a write's acknowledgement is noted (R366), and a thread that has ended may then
be recorded (R364). -/
def State.threadArrive (s : State) (t : ThreadId) (request : Nat) (data : List Byte) : State :=
  let acked (s : State) : State := (s.modThread t fun th => { th with writes := th.writes.filter fun w => w != request }).threadFinish t
  match s.thread? t with
  | none => s
  | some th =>
    match th.wait with
    | .remote rd width id =>
      if id == request && th.state == .waiting then
        s.modThread t fun th => (th.setReg rd (BitVec.ofNat 64 (leNat (data.take width)))).proceed
      else acked s
    | .word va value cycles (some id) =>
      if id == request && th.state == .waiting then s.watched t va value cycles (BitVec.ofNat 64 (leNat (data.take 8))) else acked s
    | _ => acked s

/-- R80, R81, R477: threads whose access could not go out try it again. -/
def State.outlets (s : State) : State :=
  { s with clusters := s.clusters.map fun c => { c with
      threads := updIf (fun th => th.state == .waiting && th.wait == .outlet) (fun th => { th with state := .running, wait := .none }) c.threads } }

/-- An owner still waits for the answer to request id; one that has ended since does not. -/
def State.waitsFor (s : State) (owner : Requester) (id : Nat) : Bool :=
  match owner with
  | .dma x e => (s.job? x e).elim false fun j => j.waiting == some id
  | .thread t => (s.thread? t).elim false fun th =>
      th.writes.contains id || (match th.wait with
        | .remote _ _ k => k == id
        | .word _ _ _ (some k) => k == id
        | _ => false)
  | _ => false

/-! ## Stores (R346, R366) -/

/-- R346: a store. A write to host memory is posted while mastering is allowed; a remote write is outstanding until acknowledged. -/
def State.storeReg (s : State) (t : ThreadId) (rs ra width : Nat) : State :=
  s.onThread t fun th s => s.withRegs t th [rs, ra] fun s =>
    let va := (th.reg ra).toNat
    let bytes := leBytes width (th.reg rs).toNat
    if va % width != 0 then s.threadEnd t stMisaligned th.pcDetail 0#64
    else
      let g := s.vwrite (threadReader t) .device .write va bytes
      match g.1 with
      | .bytes _ => g.2.modThread t Thread.advance
      | .away (.host a) =>
        if g.2.canMaster then ((g.2.crossOut (.thread t) 0 width).sendWrite a bytes).modThread t Thread.advance
        else g.2.threadWait t .outlet
      | .away (.remote k a) =>
        (match g.2.ask 2 k a width width bytes (.thread t) va with
        | (.now _, s') => s'.modThread t Thread.advance
        | (.later tag, s') => s'.modThread t fun th => { th.advance with writes := th.writes ++ [tag] }
        | (.failed r, s') => s'.threadEnd t stDeviceError (r % 65536) 0#64
        | (.busy, s') => s'.threadWait t .outlet)
      | g1 => g.2.threadStop t .write g1

def execStB (t : ThreadId) (rs ra : Nat) (s : State) : Host.Outcome State Fault Refusal := s.after <| .next (s.storeReg t rs ra 1)
def execStH (t : ThreadId) (rs ra : Nat) (s : State) : Host.Outcome State Fault Refusal := s.after <| .next (s.storeReg t rs ra 2)
def execStW (t : ThreadId) (rs ra : Nat) (s : State) : Host.Outcome State Fault Refusal := s.after <| .next (s.storeReg t rs ra 4)
def execStD (t : ThreadId) (rs ra : Nat) (s : State) : Host.Outcome State Fault Refusal := s.after <| .next (s.storeReg t rs ra 8)

/-! ## Atomics (R346, R365) -/

/-- R365: an atomic of 8 bytes at memory; rd receives the old value. -/
def State.atomic (s : State) (t : ThreadId) (op rd ra : Nat) (rs : List Nat) : State :=
  s.onThread t fun th s => s.withRegs t th (rd :: ra :: rs) fun s =>
    let va := (th.reg ra).toNat
    let a := th.reg (rs.getD 0 0)
    let b := th.reg (rs.getD 1 0)
    if va % 8 != 0 then s.threadEnd t stMisaligned th.pcDetail 0#64
    else
      let g := s.amo (threadReader t) .device op va a b
      match g.1 with
      | .bytes old => g.2.modThread t fun th => (th.setReg rd (BitVec.ofNat 64 (leNat old))).advance
      | .away (.remote k x) =>
        let operand := leBytes 8 a.toNat ++ (if op == 2 then leBytes 8 b.toNat else [])
        (match g.2.ask 3 k x 8 op operand (.thread t) va with
        | (.now old, s') => s'.modThread t fun th => (th.setReg rd (BitVec.ofNat 64 (leNat (old.take 8)))).advance
        | (.later tag, s') => s'.threadWait t (.remote rd 8 tag)
        | (.failed r, s') => s'.threadEnd t stDeviceError (r % 65536) 0#64
        | (.busy, s') => s'.threadWait t .outlet)
      | g1 => g.2.threadStop t .atomic g1

def execAmoAdd (t : ThreadId) (rd ra rb : Nat) (s : State) : Host.Outcome State Fault Refusal := s.after <| .next (s.atomic t 0 rd ra [rb])
def execAmoSwap (t : ThreadId) (rd ra rb : Nat) (s : State) : Host.Outcome State Fault Refusal := s.after <| .next (s.atomic t 1 rd ra [rb])
def execAmoCas (t : ThreadId) (rd ra rb rc : Nat) (s : State) : Host.Outcome State Fault Refusal := s.after <|
  .next (s.atomic t 2 rd ra [rb, rc])
def execAmoMax (t : ThreadId) (rd ra rb : Nat) (s : State) : Host.Outcome State Fault Refusal := s.after <| .next (s.atomic t 3 rd ra [rb])

/-! ## Issues (R227, R228, R258, R269, R319) -/

/-- R267, R269: the scalar registers that a vector descriptor's sources name. -/
def scalarSources (d : List Byte) : List Nat :=
  ([0x10, 0x30, 0x50].filter fun o => field (get32 d (o + 4)) 31 30 == 1).map fun o => get8 d o % 32

/-- R266: the register that receives a vector instruction's summary. -/
def summaryReg (d : List Byte) : Option Nat :=
  if field (get32 d 0) 20 18 == 0 then none else some (field (get32 d 0) 25 21)

def EngineRef.isVector : EngineRef → Bool
  | .vector _ => true
  | _ => false

/-- The thread's issue has been accepted. -/
def State.issueTaken (s : State) (t : ThreadId) (r : EngineRef) (w : Work) : State :=
  (s.acceptWork r w).modThread t fun th =>
    let th := { th with issued := th.issued ++ [w.uid] }
    let th := if r.isVector then
        (match summaryReg w.desc with
        | some g => { th with summaries := th.summaries ++ [(g, w.uid)] }
        | none => th)
      else th
    th.proceed

/-- The engine that ISSUE.M (0), ISSUE.V (1) or ISSUE.R (2) names (R346). -/
def State.issueTarget (s : State) (t : ThreadId) (engine : Nat) (d : List Byte) : EngineRef :=
  match engine with
  | 0 => .matrix t.at_
  | 1 => .vector t.at_
  | _ => .router (s.homeXdie d)

/-- R369: the thread as the issuer of work: with its queue, and the TAG of the request that accepted its launch. -/
def State.issuerOf (s : State) (t : ThreadId) (th : Thread) : Issuer :=
  let tag := ((s.queue? th.queue).bind fun q => q.items.find? fun it => it.uid == th.uid).elim 0#32 fun it => it.tag
  .thread t th.queue tag

/-- R227, R228, R346: an ISSUE is accepted, the descriptor read as it then stands, or the thread waits until the queue has an entry free. A
descriptor that is not 64-byte aligned ends the thread with MISALIGNED, and one in host or remote memory as a KIND fault (DEDUCED, log 26). -/
def State.issueNow (s : State) (t : ThreadId) (th : Thread) (engine ra : Nat) : State :=
  let va := (th.reg ra).toNat
  if va % 64 != 0 then s.threadEnd t stMisaligned th.pcDetail 0#64
  else
    let g := s.vread (threadReader t) .device .read va 192
    match g.1 with
    | .bytes d =>
      g.2.withRegs t th (if engine == 1 then scalarSources d else []) fun s =>
        let r := s.issueTarget t engine d
        if s.engineFull d r then s.threadWait t (.issue engine ra)
        else
          let u := s.newUid
          u.2.issueTaken t r ⟨u.1, s.issuerOf t th, th.urgent, d, if engine == 1 then th.regs.toList else []⟩
    | .away _ => g.2.threadStop t .read (.stop 4 va)
    | g1 => g.2.threadStop t .read g1

def State.issue (s : State) (t : ThreadId) (engine ra : Nat) : State :=
  s.onThread t fun th s => s.withRegs t th [ra] fun s => s.issueNow t th engine ra

def execIssueM (t : ThreadId) (ra : Nat) (s : State) : Host.Outcome State Fault Refusal := s.after <| .next (s.issue t 0 ra)
def execIssueV (t : ThreadId) (ra : Nat) (s : State) : Host.Outcome State Fault Refusal := s.after <| .next (s.issue t 1 ra)
def execIssueR (t : ThreadId) (ra : Nat) (s : State) : Host.Outcome State Fault Refusal := s.after <| .next (s.issue t 2 ra)

/-- R227: a waiting issue is accepted once an entry frees. -/
def execIssueAccepted (t : ThreadId) (s : State) : Host.Outcome State Fault Refusal := s.after <|
  match s.thread? t with
  | none => .next s
  | some th =>
    if th.state != .waiting then .next s
    else
      match th.wait with
      | .issue engine ra => .next (s.issueNow t th engine ra)
      | _ => .next s

/-! ## Fences (R346, R364, R366) -/

/-- What a fence of a kind (0 Q, 1 C, 2 D, 3 S) waits for, of the issues before it: FENCE.Q nothing, since a thread waits for each
acceptance. -/
def Thread.fenced (th : Thread) (kind : Nat) (before : List Nat) : Bool :=
  if kind == 0 then true
  else before.all (fun u => !th.issued.contains u) && (kind != 3 || th.writes.isEmpty)

def State.fence (s : State) (t : ThreadId) (kind : Nat) : State :=
  s.onThread t fun th s => s.modThread t fun th' =>
    if th.fenced kind th.issued then th'.advance else { th' with state := .waiting, wait := .fence kind th.issued }

def execFenceQ (t : ThreadId) (s : State) : Host.Outcome State Fault Refusal := s.after <| .next (s.fence t 0)
def execFenceC (t : ThreadId) (s : State) : Host.Outcome State Fault Refusal := s.after <| .next (s.fence t 1)
def execFenceD (t : ThreadId) (s : State) : Host.Outcome State Fault Refusal := s.after <| .next (s.fence t 2)
def execFenceS (t : ThreadId) (s : State) : Host.Outcome State Fault Refusal := s.after <| .next (s.fence t 3)

def execFenceComplete (t : ThreadId) (s : State) : Host.Outcome State Fault Refusal := s.after <|
  match s.thread? t with
  | none => .next s
  | some th =>
    if th.state != .waiting then .next s
    else
      match th.wait with
      | .fence kind before => if th.fenced kind before then .next (s.modThread t Thread.proceed) else .next s
      | _ => .next s

/-! ## WAIT (R346) -/

/-- R346: WAIT reads the word it watches, in host or remote memory by a request (R80, R81, R477). -/
def State.watch (s : State) (t : ThreadId) (va value : Word64) (cycles : Option Nat) : State :=
  if va.toNat % 8 != 0 then
    (match s.thread? t with
    | some th => s.threadEnd t stMisaligned th.pcDetail 0#64
    | none => s)
  else
    let g := s.vread (threadReader t) .device .read va.toNat 8
    match g.1 with
    | .bytes b => g.2.watched t va value cycles (BitVec.ofNat 64 (leNat b))
    | .away (.host a) =>
      if g.2.canMaster && !g.2.readsFull then
        let u := g.2.hostAsk va.toNat a 8 (.thread t)
        u.2.threadWait t (.word va value cycles (some u.1))
      else g.2.threadWait t (.word va value cycles none)
    | .away (.remote k a) =>
      (match g.2.ask 1 k a 8 8 [] (.thread t) va.toNat with
      | (.now b, s') => s'.watched t va value cycles (BitVec.ofNat 64 (leNat (b.take 8)))
      | (.later tag, s') => s'.threadWait t (.word va value cycles (some tag))
      | (.failed r, s') => s'.threadEnd t stDeviceError (r % 65536) 0#64
      | (.busy, s') => s'.threadWait t (.word va value cycles none))
    | g1 => g.2.threadStop t .read g1

/-- R346: WAIT on a word, on a count of control cycles, or on whichever comes first. -/
def execWait (t : ThreadId) (w : WaitFor) (s : State) : Host.Outcome State Fault Refusal := s.after <|
  match w with
  | .word ra rb cycles =>
    .next (s.onThread t fun th s => s.withRegs t th [ra, rb] fun s => s.watch t (th.reg ra) (th.reg rb) cycles)
  | .cycles n => .next (s.onThread t fun _ s => s.modThread t fun th =>
      if n == 0 then th.advance else { th with state := .waiting, wait := .cycles n })

/-- R346: a waiting thread looks again, cyclesPassed control cycles after its WAIT. -/
def execWaitWake (t : ThreadId) (cyclesPassed : Nat) (s : State) : Host.Outcome State Fault Refusal := s.after <|
  match s.thread? t with
  | none => .next s
  | some th =>
    if th.state != .waiting then .next s
    else
      match th.wait with
      | .word va value cycles request =>
        if cycles.any fun n => n ≤ cyclesPassed then .next (s.modThread t Thread.proceed)
        else if request.isSome then .next s
        else .next (s.watch t va value cycles)
      | .cycles n => if n ≤ cyclesPassed then .next (s.modThread t Thread.proceed) else .next s
      | _ => .next s

/-! ## The end, and the launch (R344, R345, R347) -/

def execEndThread (t : ThreadId) (s : State) : Host.Outcome State Fault Refusal := s.after <|
  .next (s.onThread t fun th s => s.withRegs t th [1] fun s => s.threadEnd t stOk 0 (th.reg 1))

def execIllegalInstruction (t : ThreadId) (s : State) : Host.Outcome State Fault Refusal := s.after <|
  .next (s.onThread t fun th s => s.threadEnd t stIllegal th.pcDetail 0#64)

/-- R344: the check of a thread-launch descriptor. -/
def launchBad (p : Part) (d : List Byte) : Option Nat :=
  leastBad ([(0x90, !(get8 d 0x90 < p.c && get8 d 0x91 < 16)), (0, 16 < field (get32 d 0) 8 4 || field (get32 d 0) 31 9 != 0), (4, get32 d 4 != 0), (8, get32 d 8 % 4 != 0), addrBad d 8]
    ++ gapBad d 0x50 0x88 :: wideBad d 0x88 :: tailBad d 0xC0)

/-- R345: the registers of a launched thread. -/
def launchRegs (d : List Byte) (e : ClusterId) (n : Nat) : Vector Word64 32 :=
  Vector.ofFn fun i =>
    if 1 ≤ i.val && i.val ≤ 8 then BitVec.ofNat 64 (get64 d (8 + 8 * i.val))
    else if i.val == 30 then BitVec.ofNat 64 (localBase + e.index * 2 ^ 25)
    else if i.val == 31 then BitVec.ofNat 64 (e.cdie * 2 ^ 8 + e.cluster * 16 + n)
    else 0#64

/-- R344: the thread a launch names, if it can start. -/
def launchThread (c : Cluster) (want : Nat) : Option Nat :=
  if want == 16 then (List.range 16).find? fun i => (match c.threads[i]? with | some th => th.state == .idle | none => false)
  else
    match c.threads[want]? with
    | some th => if th.state == .idle then some want else none
    | none => none

/-- R344, R345: starts the thread that the item at the head of a queue launches. -/
def execThreadLaunch (queue : Nat) (s : State) : Host.Outcome State Fault Refusal := s.after <|
  match s.offered queue with
  | none => .next s
  | some (q, it) =>
    match it.work with
    | .dma _ _ _ _ => .next s
    | .failed _ _ => .next s
    | .desc d =>
      if descKind d != 5 then .next s
      else
        let e := descCluster d
        match launchBad s.fuses.part d with
        | some detail => .next (s.endItem queue it.uid stMalformed detail 0#32 0#32)
        | none =>
          match s.cluster? e with
          | none => .next (s.endItem queue it.uid stMalformed 0x90 0#32 0#32)
          | some c =>
            match launchThread c (field (get32 d 0) 8 4) with
            | none => .next s
            | some n =>
              .next (((s.startItem queue it.uid).powerUp (.cluster e)).modThread ⟨e, n⟩ fun _ =>
                { Thread.reset with
                  pc := BitVec.ofNat 64 (descAddr d 8)
                  regs := launchRegs d e n
                  urgent := q.urgent
                  state := .running
                  queue := queue
                  uid := it.uid
                  statusVa := descAddr d 0x88 })

end Sys2Proof.Machine
end

