-- ==== Sys2Proof/Machine/Vector.lean ====
section
/-! DEFINITION. The vector engine's commands: one per opcode, and the end of an instruction (R258 to R289, R290, R301). -/

namespace Sys2Proof.Machine

/-! ## Running an instruction -/

def newVectorOp (w : Work) : VectorOp :=
  { work := w, opened := false, nextBeat := 0, counts := Counts.zero, bank := false, fbank := false, pbank := false, table := [],
    seg := SegState.start, sum := SumState.start, heldBlock := [], maskedAt := none, view := [], saved := [],
    suspended := none, ended := none }

def State.setVector (s : State) (e : ClusterId) (op : Option VectorOp) : State := s.modVector e fun v => { v with active := op }

/-- R221: an instruction that has read its tile, or has ended, leaves its place in the matrix engine's queue. -/
def State.leaveMatrixQueue (s : State) (e : ClusterId) (w : Work) : State :=
  if readsAccumulator w.desc then s.modMatrix e fun m => { m with queue := m.queue.filter fun x => x.uid != w.uid } else s

/-- An instruction stops (R286, R287). R262: the memory that it reads is noted. -/
def State.vecHalt (s : State) (e : ClusterId) (op : VectorOp) (h : Halt) : State :=
  let r := s.haltEnd h
  let s := if r.1.1.isSome then r.2.countSuspension e else r.2.leaveMatrixQueue e op.work
  let view := if r.1.1.isSome then s.viewOf ((VecDesc.of op.work.desc).reads op.work.desc) else []
  s.setVector e (some { op with suspended := r.1.1, ended := r.1.2, view := view })

/-- R262: the bytes of ranges of local memory as they stand, page by page. -/
def State.savedOf (s : State) (ranges : List (Nat × Nat)) : List (Nat × List Byte) :=
  (ranges.flatMap fun r => cutPages (r.2 / 65536 + 2) r.1 r.2).filterMap fun p => (s.peek p.1 p.2).map fun bs => (p.1, bs)

/-- R183, R187: what comes before the first beat: the stream table and the banks. R262: where D coincides with a source that GATHER or SCATTER
reads out of order, each of its elements is read as it stood before the first was written (DEDUCED, log 62). -/
def State.vecOpen (s : State) (e : ClusterId) (op : VectorOp) (x : VecDesc) : Except Halt VectorOp × State :=
  let d := op.work.desc
  let u := TableUser.vector e
  let bound := { op with
    opened := true
    saved := s.savedOf (x.crossed)
    bank := s.tables.antilog.bankOf u
    fbank := s.tables.function.bankOf u
    pbank := s.tables.programs.bankOf u }
  if x.rnd == stoch && field (get32 d 0x7C) 20 19 == 2 then
    match s.fetchIn vectorReader (ownCluster e) 10 (descAddr d 0x80) 1024 with
    | (.error h, s) => (.error h, s)
    | (.ok bs, s) =>
      let table := (chunks 4 256 bs).map leNat
      (.ok { bound with table := table, counts := op.counts.noteAliases table }, s)
  else (.ok bound, s)

/-- R287, R288: beats, until the instruction stops or its last element is written. -/
def State.vecRun (e : ClusterId) (x : VecDesc) : Nat → VectorOp → State → State
  | 0, op, s => (s.leaveMatrixQueue e op.work).setVector e (some { op with ended := some ⟨stOk, 0⟩ })
  | n + 1, op, s =>
    match s.vecBeat e op x with
    | (.error h, s) => s.vecHalt e op h
    | (.ok op, s) => State.vecRun e x n op s

/-- Goes on with an instruction that has left the queue and passed its check. -/
def State.vecGo (s : State) (e : ClusterId) (op : VectorOp) : State :=
  let x := VecDesc.of op.work.desc
  let left := ceilDiv x.count 256 - op.nextBeat
  if op.opened then s.vecRun e x left op
  else
    match s.vecOpen e op x with
    | (.error h, s) => s.vecHalt e op h
    | (.ok op, s) => s.vecRun e x left op

/-- R269, R285: whether an instruction comes from a SUBMIT queue. -/
def Work.queued (w : Work) : Bool :=
  match w.issuer with
  | .queue _ => true
  | .thread _ _ _ => false
  | .debug _ => false

/-- R213, R221: the instruction's place in the matrix engine's queue has come to the head. -/
def Cluster.tileReady (c : Cluster) (w : Work) : Bool :=
  !readsAccumulator w.desc
    || (c.matrix.active.isNone && (match c.matrix.head? with | some h => h.uid == w.uid | none => false))

/-- R259, R285: the instruction at the head of the queue leaves it. -/
def State.vecStart (s : State) (e : ClusterId) (w : Work) : Host.Outcome State Fault Refusal :=
  let s := s.modVector e fun v => { v with queue := v.queue.drop 1 }
  match vecBad w.desc w.queued with
  | some detail =>
    .next ((s.leaveMatrixQueue e w).setVector e (some { newVectorOp w with ended := some ⟨stMalformed, detail⟩ }))
  | none =>
    if (VecDesc.of w.desc).overlaps w.desc then .fault .vectorOverlap
    else
      let s := if readsAccumulator w.desc then s.spillFor e w else s
      .next (s.vecGo e (newVectorOp w))

/-- A vector instruction with an opcode that pick names goes on, or leaves the queue; its result is by R271 or R290. -/
def State.runVector (s : State) (e : ClusterId) (pick : Nat → Bool) : Host.Outcome State Fault Refusal :=
  match s.cluster? e with
  | none => .next s
  | some c =>
    match c.vector.active with
    | some op =>
      if !pick (VecDesc.of op.work.desc).op || op.suspended.isSome || op.ended.isSome || !s.enginesRun then .next s
      else if s.viewHolds op.view then .next (s.vecGo e op)
      else .fault .operandWritten
    | none =>
      match c.vector.queue with
      | [] => .next s
      | w :: _ =>
        if !pick (VecDesc.of w.desc).op || !s.engineFree w || !c.tileReady w then .next s else s.vecStart e w

/-! ## One command per opcode -/

/-- R271, R272: COPY. -/
def execVCopy (e : ClusterId) (s : State) : Host.Outcome State Fault Refusal := s.after <| s.runVector e fun op => op == 0x00
def execVAdd (e : ClusterId) (s : State) : Host.Outcome State Fault Refusal := s.after <| s.runVector e fun op => op == 0x01
def execVSub (e : ClusterId) (s : State) : Host.Outcome State Fault Refusal := s.after <| s.runVector e fun op => op == 0x02
def execVMul (e : ClusterId) (s : State) : Host.Outcome State Fault Refusal := s.after <| s.runVector e fun op => op == 0x03
def execVFma (e : ClusterId) (s : State) : Host.Outcome State Fault Refusal := s.after <| s.runVector e fun op => op == 0x04
def execVMax (e : ClusterId) (s : State) : Host.Outcome State Fault Refusal := s.after <| s.runVector e fun op => op == 0x05
def execVMin (e : ClusterId) (s : State) : Host.Outcome State Fault Refusal := s.after <| s.runVector e fun op => op == 0x06
def execVAbs (e : ClusterId) (s : State) : Host.Outcome State Fault Refusal := s.after <| s.runVector e fun op => op == 0x07
def execVNeg (e : ClusterId) (s : State) : Host.Outcome State Fault Refusal := s.after <| s.runVector e fun op => op == 0x08
def execVScale (e : ClusterId) (s : State) : Host.Outcome State Fault Refusal := s.after <| s.runVector e fun op => op == 0x09
/-- R271: SELECT. -/
def execVSelect (e : ClusterId) (s : State) : Host.Outcome State Fault Refusal := s.after <| s.runVector e fun op => op == 0x0A
def execVCmpEq (e : ClusterId) (s : State) : Host.Outcome State Fault Refusal := s.after <| s.runVector e fun op => op == 0x10
def execVCmpLt (e : ClusterId) (s : State) : Host.Outcome State Fault Refusal := s.after <| s.runVector e fun op => op == 0x11
def execVCmpLe (e : ClusterId) (s : State) : Host.Outcome State Fault Refusal := s.after <| s.runVector e fun op => op == 0x12
def execVCmpUn (e : ClusterId) (s : State) : Host.Outcome State Fault Refusal := s.after <| s.runVector e fun op => op == 0x13
def execVAnd (e : ClusterId) (s : State) : Host.Outcome State Fault Refusal := s.after <| s.runVector e fun op => op == 0x18
def execVOr (e : ClusterId) (s : State) : Host.Outcome State Fault Refusal := s.after <| s.runVector e fun op => op == 0x19
def execVXor (e : ClusterId) (s : State) : Host.Outcome State Fault Refusal := s.after <| s.runVector e fun op => op == 0x1A
def execVNot (e : ClusterId) (s : State) : Host.Outcome State Fault Refusal := s.after <| s.runVector e fun op => op == 0x1B
/-- R275: GATHER. -/
def execVGather (e : ClusterId) (s : State) : Host.Outcome State Fault Refusal := s.after <| s.runVector e fun op => op == 0x20
/-- R275: SCATTER. -/
def execVScatter (e : ClusterId) (s : State) : Host.Outcome State Fault Refusal := s.after <| s.runVector e fun op => op == 0x21
/-- R277: RSUM. -/
def execVRsum (e : ClusterId) (s : State) : Host.Outcome State Fault Refusal := s.after <| s.runVector e fun op => op == 0x30
/-- R279: RMAX. -/
def execVRmax (e : ClusterId) (s : State) : Host.Outcome State Fault Refusal := s.after <| s.runVector e fun op => op == 0x31
/-- R279: RMIN. -/
def execVRmin (e : ClusterId) (s : State) : Host.Outcome State Fault Refusal := s.after <| s.runVector e fun op => op == 0x32
/-- R312: RSTATS. -/
def execVRstats (e : ClusterId) (s : State) : Host.Outcome State Fault Refusal := s.after <| s.runVector e fun op => op == 0x33
def execVExp2 (e : ClusterId) (s : State) : Host.Outcome State Fault Refusal := s.after <| s.runVector e fun op => op == 0x40
def execVLog2 (e : ClusterId) (s : State) : Host.Outcome State Fault Refusal := s.after <| s.runVector e fun op => op == 0x41
def execVExp (e : ClusterId) (s : State) : Host.Outcome State Fault Refusal := s.after <| s.runVector e fun op => op == 0x42
def execVLog (e : ClusterId) (s : State) : Host.Outcome State Fault Refusal := s.after <| s.runVector e fun op => op == 0x43
def execVSqrt (e : ClusterId) (s : State) : Host.Outcome State Fault Refusal := s.after <| s.runVector e fun op => op == 0x44
def execVRecip (e : ClusterId) (s : State) : Host.Outcome State Fault Refusal := s.after <| s.runVector e fun op => op == 0x45
def execVRsqrt (e : ClusterId) (s : State) : Host.Outcome State Fault Refusal := s.after <| s.runVector e fun op => op == 0x46
def execVSigmoid (e : ClusterId) (s : State) : Host.Outcome State Fault Refusal := s.after <| s.runVector e fun op => op == 0x47
def execVTanh (e : ClusterId) (s : State) : Host.Outcome State Fault Refusal := s.after <| s.runVector e fun op => op == 0x48
def execVGelu (e : ClusterId) (s : State) : Host.Outcome State Fault Refusal := s.after <| s.runVector e fun op => op == 0x49
def execVSin (e : ClusterId) (s : State) : Host.Outcome State Fault Refusal := s.after <| s.runVector e fun op => op == 0x4A
def execVCos (e : ClusterId) (s : State) : Host.Outcome State Fault Refusal := s.after <| s.runVector e fun op => op == 0x4B
/-- R300: POSCODE. -/
def execVPoscode (e : ClusterId) (s : State) : Host.Outcome State Fault Refusal := s.after <| s.runVector e fun op => op == 0x4C
/-- R308: SMMERGE. -/
def execVSmmerge (e : ClusterId) (s : State) : Host.Outcome State Fault Refusal := s.after <| s.runVector e fun op => op == 0x50
/-- R309: SMEXP. -/
def execVSmexp (e : ClusterId) (s : State) : Host.Outcome State Fault Refusal := s.after <| s.runVector e fun op => op == 0x51
/-- R309: SMNORM. -/
def execVSmnorm (e : ClusterId) (s : State) : Host.Outcome State Fault Refusal := s.after <| s.runVector e fun op => op == 0x52
/-- R309: SMPROB. -/
def execVSmprob (e : ClusterId) (s : State) : Host.Outcome State Fault Refusal := s.after <| s.runVector e fun op => op == 0x53
/-- R315: STMERGE. -/
def execVStmerge (e : ClusterId) (s : State) : Host.Outcome State Fault Refusal := s.after <| s.runVector e fun op => op == 0x58
/-- R317: NORMAPPLY. -/
def execVNormapply (e : ClusterId) (s : State) : Host.Outcome State Fault Refusal := s.after <| s.runVector e fun op => op == 0x59
/-- R301: opcodes 0x60 to 0x7F. -/
def execVMprog (e : ClusterId) (s : State) : Host.Outcome State Fault Refusal := s.after <| s.runVector e isProgram

/-! ## The end of an instruction (R281 to R284) -/

/-- R284: the status record. FENCE_WAIT, STREAM_STALL and CYCLES are free values (log 11). -/
def vectorRecord (x : Ending) (c : Counts) (scalar : Word64) (times : List Word64) : List Byte :=
  leBytes 4 (x.status + x.detail % 32768 * 2 ^ 16 + 2 ^ 31) ++ leBytes 4 c.aflags.toNat ++ leBytes 4 c.invalid ++ leBytes 4 c.sat
    ++ leBytes 4 c.flush ++ leBytes 4 c.alias_ ++ leBytes 4 c.indexRange ++ leBytes 4 c.negClamp ++ leBytes 4 c.maskedRow
    ++ zeros 4 ++ leBytes 8 scalar.toNat ++ (times.flatMap fun t => leBytes 8 t.toNat) ++ zeros 24

/-- R282: the summary register is written, or left as it is, and a thread that waited for it goes on. -/
def Thread.settle (th : Thread) (uid : Nat) (value : Option Word64) : Thread :=
  match th.summaries.find? fun p => p.2 == uid with
  | none => th
  | some p =>
    let th := { th with summaries := th.summaries.filter fun q => q.2 != uid }
    let th := match value with
      | some v => th.setReg p.1 v
      | none => th
    if th.state == .waiting && th.wait == .summary p.1 && !(th.summaries.any fun q => q.1 == p.1) then
      { th with state := .running, wait := .none }
    else th

def State.settleSummary (s : State) (w : Work) (value : Option Word64) : State :=
  match w.issuer with
  | .thread t _ _ => s.modThread t fun th => th.settle w.uid value
  | .queue _ => s
  | .debug _ => s

/-- The instruction leaves the engine, its summary is written or left, and it completes. -/
def State.vecDone (s : State) (e : ClusterId) (op : VectorOp) (y : Ending) (scalar : Word64) : State :=
  (((s.setVector e none).modCluster e fun c => { c with vectorOps := bump c.vectorOps 1 }).settleSummary op.work
    (if y.status == stOk && (VecDesc.of op.work.desc).summary != 0 then some scalar else none)).endCounted op.work y op.counts

/-- R230, R282, R284: writes the status record and the summary of the active instruction, which has ended. -/
def State.vecFinish (s : State) (e : ClusterId) (op : VectorOp) (x : Ending) : State :=
  let d := VecDesc.of op.work.desc
  let scalar := if x.status == stOk then op.sum.scalar (s.antilogBank op.bank) d op.counts else 0#64
  let f := s.freshes 3
  match f.2.close (vectorReader.on (.c, e.cdie)) (.vector e) d.status x (vectorRecord x op.counts scalar f.1) with
  | .waits y s => (s.setVector e (some { op with suspended := some y })).countSuspension e
  | .held => s.setVector e (some { op with ended := some x })
  | .done _ y s => s.vecDone e op y scalar

/-- R271, R285: no row of the opcode table takes this instruction: it is malformed. -/
def State.vecStray (s : State) (e : ClusterId) (c : Cluster) (w : Work) : State :=
  if opExists (VecDesc.of w.desc).op || !s.engineFree w || !c.tileReady w then s
  else
    let s := (s.modVector e fun v => { v with queue := v.queue.drop 1 }).leaveMatrixQueue e w
    match vecBad w.desc w.queued with
    | some detail => s.vecFinish e (newVectorOp w) ⟨stMalformed, detail⟩
    | none => s

/-- R230, R281 to R284: the end of a vector instruction; one with a reserved opcode ends as it leaves the queue. -/
def execVectorEnd (e : ClusterId) (s : State) : Host.Outcome State Fault Refusal := s.after <|
  match s.cluster? e with
  | none => .next s
  | some c =>
    match c.vector.active with
    | none =>
      (match c.vector.queue with
      | [] => .next s
      | w :: _ => .next (s.vecStray e c w))
    | some op =>
      match op.ended, op.suspended with
      | some x, none => .next (s.vecFinish e op x)
      | _, _ => .next s

end Sys2Proof.Machine
end

