-- ==== Sys2Proof/Machine/Host.lean ====
section
/-! DEFINITION. The host at the PCIe port: BAR0 registers and carrels (R69 to R73, R101 to R104), the BAR2 window (R74 to R79),
configuration space, the device as requester and its messages (R80 to R87, R92), heartbeats (R118). -/

namespace Sys2Proof.Machine

/-! ## Requests of the host -/

/-- What a memory request of the host meets at the port (R86, R92, R515, R517). -/
inductive Reach | silent | unsupported | served
  deriving DecidableEq, Repr

/-- The link carries requests. -/
def State.linkUp (s : State) : Bool := s.pins.pgood && !s.pins.inReset && s.link.lanes != 0

def State.reach (s : State) : Reach :=
  if !s.linkUp then .silent else if !s.cfg.memorySpace || s.cfg.d3hot then .unsupported else .served

/-- R86: an AER uncorrectable error. -/
def State.aer (s : State) (e : AerError) : State :=
  if s.cfg.aer.contains e then s else { s with cfg := { s.cfg with aer := s.cfg.aer ++ [e] } }

/-- R66: a request arriving takes the link out of L1. -/
def State.awake (s : State) : State := { s with link := { s.link with inL1 := false } }

/-- R86: link errors that a replay has mended. -/
def State.replays (s : State) (es : List LinkError) : State :=
  { s with cfg := { s.cfg with aerCorrected := es.foldl (fun l e => if l.contains e then l else l ++ [e]) s.cfg.aerCorrected } }

/-- R86: a TLP reaches the port over a link that is up: replayed until it is whole, and discarded where it fails its ECRC. -/
def State.arrives (s : State) (a : Arrival) (f : State → State) : State :=
  if !s.linkUp then s
  else
    let s := s.awake.replays a.replayed
    if a.ecrcBad && s.cfg.ecrcCheck then s.aer .ecrc else f s

/-- R86, R91: a BAR0 write: refused while memory space is disabled, discarded while DEVICE_RESET has not published the ROM edition. -/
def State.bar0Write (s : State) (f : State → State) : State :=
  match s.reach with
  | .silent => s
  | .unsupported => s.awake.aer .unsupportedRequest
  | .served => if s.pins.softReset then s.awake else f s.awake

/-! ## Control registers (R71) -/

/-- R72: rings merge with pending ones. -/
def State.ring (s : State) (hi : Bool) (v : Word32) : State :=
  { s with bar0 := { s.bar0 with pend := s.bar0.pend ||| (v.setWidth 64 <<< (if hi then 32 else 0)) } }

/-- R71, R76. -/
def State.setBar2Lo (s : State) (v : Word32) : State :=
  { s with bar0 := { s.bar0 with bar2Lo := v &&& 0xC0000001#32, bar2HiActive := s.bar0.bar2HiStaged } }

/-- R14, R71: lock bits are set, never cleared by a write. -/
def State.setLocks (s : State) (v : Word32) : State :=
  { s with bar0 := { s.bar0 with lock := s.bar0.lock ||| v.setWidth 5 } }

/-- R71, R91: RESET_CTRL acts on the correct key only. -/
def State.resetCtrl (s : State) (v : Word32) : State :=
  if v.setWidth 16 == 0x5153#16 && v.getLsbD 16 then s.deviceReset else s

/-- R71: a BAR2 access fails. -/
def State.bar2Fail (s : State) (va : Nat) (write : Bool) : State :=
  let b := { s.bar0 with bar2FaultCount := bump s.bar0.bar2FaultCount 1 }
  if b.bar2Fault then { s with bar0 := b }
  else
    let b := { b with bar2Fault := true, bar2FaultAddr := BitVec.ofNat 57 va, bar2FaultWrite := write }
    ({ s with bar0 := b }).raise 66

/-- R11: a write to BAR2_FAULT; a setting event in the same cycle wins. -/
def State.bar2Clear (s : State) (v : Word32) (sameCycle : Option (Nat × Bool)) : State :=
  let s := if v.getLsbD 0 then { s with bar0 := { s.bar0 with bar2Fault := false } } else s
  match sameCycle with
  | none => s
  | some (va, w) => s.bar2Fail va w

/-- R70: an access that is badly sized, or to a reserved offset. -/
def State.badAccess (s : State) : State := { s with host := { s.host with badAccess := bump s.host.badAccess 1 } }

/-- R71: a word of the control registers is written. -/
def State.writeControl (s : State) (off : Nat) (v : Word32) : State :=
  match off with
  | 0x00 => s.ring false v
  | 0x04 => s.ring true v
  | 0x08 => s
  | 0x0C => s
  | 0x10 => s.setBar2Lo v
  | 0x14 => { s with bar0 := { s.bar0 with bar2HiStaged := v.setWidth 25 } }
  | 0x20 => s.setLocks v
  | 0x30 => s.resetCtrl v
  | 0x34 => s
  | 0x40 => s.bar2Clear v none
  | 0x44 => s
  | 0x48 => s
  | 0x4C => s
  | _ => s.badAccess

/-- R84: an entry of the interrupt map; entries 69 to 255 are reserved, and a write to them is discarded (DEDUCED, log 28). -/
def State.writeImap (s : State) (source : Nat) (v : Word32) : State :=
  { s with bar0 := { s.bar0 with intMap := s.bar0.intMap.modify source fun _ => ⟨v.setWidth 8, v.getLsbD 8⟩ } }

def lowPart (w : Word64) (v : Word32) : Word64 := (w &&& 0xFFFFFFFF00000000#64) ||| v.setWidth 64
def highPart (w : Word64) (v : Word32) : Word64 := (w &&& 0x00000000FFFFFFFF#64) ||| (v.setWidth 64 <<< 32)

/-- A word of the MSI-X table (PCIe layout: address low, address high, data, vector control); R85: an unmasked pending message is sent. -/
def State.writeMsix (s : State) (off : Nat) (v : Word32) : State :=
  let e (e : MsixEntry) : MsixEntry :=
    match off / 4 % 4 with
    | 0 => { e with addr := lowPart e.addr v }
    | 1 => { e with addr := highPart e.addr v }
    | 2 => { e with data := v }
    | _ => { e with masked := v.getLsbD 0 }
  ({ s with bar0 := { s.bar0 with msix := s.bar0.msix.modify (off / 16) e } }).flushVector (off / 16)

/-- R69, R70: which part of BAR0 an offset lies in: 0 carrels, 1 Catalogue, 2 control registers, 3 interrupt map, 4 MSI-X table, 5 pending bits,
6 reserved. -/
def bar0Part (off : Nat) : Nat :=
  if off < 0x40000 then 0
  else if 0x100000 ≤ off && off < 0x200000 then 1
  else if 0x200000 ≤ off && off < 0x200100 then 2
  else if 0x201000 ≤ off && off < 0x201400 then 3
  else if 0x300000 ≤ off && off < 0x301000 then 4
  else if 0x301000 ≤ off && off < 0x301020 then 5
  else 6

/-- R70: the access sizes that registers take. -/
def wellSized (off n : Nat) : Bool := (n == 4 && off % 4 == 0) || (n == 8 && off % 8 == 0)

/-- One 4-byte access to registers; a DEVICE_RESET that has begun discards what follows (R91). -/
def State.writeWord (s : State) (off : Nat) (v : Word32) : State :=
  if s.pins.softReset then s
  else
    match bar0Part off with
    | 2 => s.writeControl (off - 0x200000) v
    | 3 => s.writeImap ((off - 0x201000) / 4) v
    | 4 => s.writeMsix (off - 0x300000) v
    | 5 => s
    | _ => s.badAccess

/-! ## Carrels (R101, R102, R104, R107, R118) -/

/-- R118: a heartbeat. DESIGN CHOICE (log 43): HEARTBEAT_AGE_MS falls to 0 at once, not at the field's next update (R102). -/
def State.beat (s : State) (v : Word32) : State :=
  if s.session.state == .attached then
    ({ s with session := { s.session with ageMs := 0 } }).modCarrel 0 fun c => { c with heartbeat := v }
  else { s with host := { s.host with hbIgnored := bump s.host.hbIgnored 1 } }

/-- R107: software has consumed completions up to a number; held ones that now fit go to the ring. -/
def State.setHead (s : State) (k : Nat) (v : Word32) : State :=
  match s.carrel? k with
  | none => s
  | some _ => (s.modCarrel k fun c => { c with cplHead := v }).pump k

/-- A word after some of its bytes are written: data laid from an offset over the word at w. -/
def mergeWord (old : Word32) (w off : Nat) (data : List Byte) : Word32 :=
  BitVec.ofNat 32 (leNat ((List.range 4).map fun i =>
    if off ≤ w + i && w + i < off + data.length then data.getD (w + i - off) 0#8 else BitVec.ofNat 8 (old.toNat / 256 ^ i)))

/-- Whether a write touches offsets lo to hi - 1. -/
def touches (off n lo hi : Nat) : Bool := off < hi && lo < off + n

/-- Bytes written to the request area from lo on. -/
def Carrel.putRequest (c : Carrel) (lo : Nat) (bs : List Byte) : Carrel :=
  { c with request := (c.request.filter fun p => p.1 < lo) ++ cellsFrom lo bs ++ (c.request.filter fun p => lo + bs.length ≤ p.1) }

/-- R101: the part of a write that falls in bytes lo to hi - 1 of the request area. -/
def Carrel.writePart (c : Carrel) (off : Nat) (data : List Byte) (lo hi : Nat) : Carrel :=
  let a := max off lo
  c.putRequest a ((data.drop (a - off)).take (hi - a))

/-- R101: the part of a write that falls in the request area; R13, R110: its reserved bytes 0x48 to 0x4F stay 0. -/
def Carrel.writeRequest (c : Carrel) (off : Nat) (data : List Byte) : Carrel :=
  (c.writePart off data 0x40 0x48).writePart off data 0x50 0x400

/-- R101: a host write to carrel memory, by the write mask. -/
def State.writeCarrel (s : State) (k off : Nat) (data : List Byte) : State :=
  match s.carrel? k with
  | none => s
  | some c =>
    let n := data.length
    let s := if touches off n 0x04 0x08 then s.modCarrel k fun c => { c with reqSeq := mergeWord c.reqSeq 0x04 off data } else s
    let s := if touches off n 0x10 0x14 then s.setHead k (mergeWord c.cplHead 0x10 off data) else s
    let s := if k == 0 && touches off n 0x18 0x1C then s.beat (mergeWord c.heartbeat 0x18 off data) else s
    if touches off n 0x40 0x400 then s.modCarrel k fun c => c.writeRequest off data else s

/-- R104: the host writes a request area while its request is not answered: the result is undefined. -/
def State.overwrites (s : State) (off n : Nat) : Bool :=
  bar0Part off == 0 && s.reach == .served && !s.pins.softReset
    && (match s.carrel? (off / 4096) with
      | some c => touches (off % 4096) n 0x40 0x400 && c.reqSeq != c.rspSeq
      | none => false)

/-- R44, R70: one write of the host to BAR0. -/
def State.hostWrite (s : State) (off : Nat) (data : List Byte) : State :=
  match bar0Part off with
  | 0 => s.writeCarrel (off / 4096) (off % 4096) data
  | 1 => s
  | 6 => s.badAccess
  | _ =>
    if wellSized off data.length then
      (List.range (data.length / 4)).foldl (fun s i => s.writeWord (off + 4 * i) (BitVec.ofNat 32 (get32 data (4 * i)))) s
    else s.badAccess

/-- R71: a write reaches RESET_CTRL. -/
def reachesReset (off n : Nat) : Bool := bar0Part off == 2 && touches (off - 0x200000) n 0x30 0x34

/-- R86: a write whose data the port does not take. -/
def State.discards (s : State) (a : Arrival) : Bool := a.poisoned || (a.ecrcBad && s.cfg.ecrcCheck)

def execRegisterWrite (offset : Nat) (data : Received (List Byte)) (s : State) : Host.Outcome State Fault Refusal :=
  let t : Host.Outcome State Fault Refusal :=
    if !s.discards data.arrival && s.overwrites offset data.what.length then .fault .requestOverwritten
    else .next (s.arrives data.arrival fun s => s.bar0Write fun s =>
      if data.arrival.poisoned then s.aer .poisonedTlp else s.hostWrite offset data.what)
  if reachesReset offset data.what.length then s.afterReset t else s.after t

def execDoorbellRing (hi : Bool) (value : Word32) (s : State) : Host.Outcome State Fault Refusal := s.after <|
  .next (s.bar0Write fun s => s.ring hi value)

def execBar2BaseLo (value : Word32) (s : State) : Host.Outcome State Fault Refusal := s.after <|
  .next (s.bar0Write fun s => s.setBar2Lo value)

def execLockPtBase (s : State) : Host.Outcome State Fault Refusal := s.after <| .next (s.bar0Write fun s => s.setLocks 1#32)
def execLockFwRegion (s : State) : Host.Outcome State Fault Refusal := s.after <| .next (s.bar0Write fun s => s.setLocks 2#32)
def execLockDebug (s : State) : Host.Outcome State Fault Refusal := s.after <| .next (s.bar0Write fun s => s.setLocks 4#32)
def execLockFaultInj (s : State) : Host.Outcome State Fault Refusal := s.after <| .next (s.bar0Write fun s => s.setLocks 8#32)
def execLockShelving (s : State) : Host.Outcome State Fault Refusal := s.after <| .next (s.bar0Write fun s => s.setLocks 16#32)

def execDeviceReset (value : Word32) (s : State) : Host.Outcome State Fault Refusal := s.afterReset <|
  .next (s.bar0Write fun s => s.resetCtrl value)

def execBar2FaultClear (sameCycle : Option (Nat × Bool)) (s : State) : Host.Outcome State Fault Refusal := s.after <|
  .next (s.bar0Write fun s => s.bar2Clear 1#32 sameCycle)

def execHeartbeat (carrel : Nat) (value : Word32) (s : State) : Host.Outcome State Fault Refusal := s.after <|
  .next (s.bar0Write fun s => if carrel == 0 then s.beat value else s)

def execCplHead (carrel : Nat) (value : Word32) (s : State) : Host.Outcome State Fault Refusal := s.after <|
  .next (s.bar0Write fun s => s.setHead carrel value)

/-! ## The BAR2 window (R74 to R79) -/

/-- R75. -/
def State.bar2Open (s : State) : Bool := s.bar0.bar2Lo.getLsbD 0 && s.tr.ready && !s.pins.softReset

/-- R74: the address that an offset names. -/
def State.bar2Address (s : State) (off : Nat) : Nat :=
  s.bar0.bar2HiActive.toNat * 2 ^ 32 + s.bar0.bar2Lo.toNat / 2 ^ 30 * 2 ^ 30 + off

/-- R77, R367: a failed translation; a walk that meets an uncorrectable error is recorded as well. -/
def State.bar2Stop (s : State) (g : Got) (va : Nat) (write : Bool) : State :=
  let s := match g with
    | .stop 5 a => (s.walkRecord a).2
    | _ => s
  (s.aer .completerAbort).bar2Fail va write

/-- R74 to R78: a read of the window that the port serves. -/
def State.bar2Read (s : State) (offset length : Nat) : State :=
  if !s.bar2Open then (s.aer .unsupportedRequest).send .unsupportedRequest
  else
    let va := s.bar2Address offset
    let g := s.vread ⟨15, some va, some (.x, 0)⟩ .host .read va length
    match g.1 with
    | .bytes b => g.2.send (.completion b false)
    | .dead _ => g.2.send (.completion (zeros length) true)
    | g1 => (g.2.bar2Stop g1 va false).send .completerAbort

def execBar2Read (offset : Nat) (length : Received Nat) (s : State) : Host.Outcome State Fault Refusal := s.after <|
  .next (s.arrives length.arrival fun s =>
    match s.reach with
    | .silent => s
    | .unsupported => (s.aer .unsupportedRequest).send .unsupportedRequest
    | .served => s.bar2Read offset length.what)

/-- R74 to R78: a write to the window that the port serves. -/
def State.bar2Write (s : State) (offset : Nat) (data : List Byte) (poisoned : Bool) : State :=
  if !s.bar2Open then s.aer .unsupportedRequest
  else if poisoned then s.aer .poisonedTlp
  else
    let va := s.bar2Address offset
    let g := s.vwrite ⟨15, none, some (.x, 0)⟩ .host .write va data
    match g.1 with
    | .bytes _ => g.2
    | .dead _ => g.2
    | g1 => g.2.bar2Stop g1 va true

def execBar2Write (offset : Nat) (data : List Byte) (arrival : Arrival) (s : State) : Host.Outcome State Fault Refusal := s.after <|
  .next (s.arrives arrival fun s =>
    match s.reach with
    | .silent => s
    | .unsupported => s.aer .unsupportedRequest
    | .served => s.bar2Write offset data arrival.poisoned)

/-! ## Mastering, configuration space and completions (R80 to R87, R92) -/

/-- R80: the threads that wait to write their records write them. -/
def State.threadRecords (s : State) : State :=
  (List.range (s.clusters.length * 16)).foldl (fun s i =>
    let t : ThreadId := ⟨clusterOf (i / 16), i % 16⟩
    if (s.thread? t).elim false fun th => th.ending.isSome && th.suspended.isNone then s.threadFinish t else s) s

/-- R80: pre-empted operations that wait to write their records write them. -/
def State.preemptedRecords (s : State) : State :=
  (List.range s.clusters.length).foldl (fun s i =>
    match (s.cluster? (clusterOf i)).bind fun c => c.matrix.preempted with
    | none => s
    | some op =>
      match op.ended, op.suspended with
      | some x, none => s.preemptedEnd (clusterOf i) op x
      | _, _ => s) s

/-- R80, R81, R477: tags or mastering have become free: what waited to go out goes: granules, accesses of threads, records. -/
def State.resumeHeld (s : State) : State := s.dmaRelease.outlets.threadRecords.preemptedRecords.collect

/-- R80, R85: what is sent when mastering is allowed again: held granules and records, mirrors, messages. -/
def State.masteringResumed (s : State) : State :=
  if s.canMaster then ((List.range 64).foldl State.flushMirror s.resumeHeld).flushMsix else s

def State.setCfg (s : State) (f : ConfigSpace → ConfigSpace) : State := { s with cfg := f s.cfg }

/-- A configuration request is served once the link is up (R89). -/
def State.configured (s : State) (f : State → State) : State := if s.linkUp then f s.awake else s

def configEffect (w : ConfigWrite) (s : State) : State :=
  match w with
  | .busMaster on => (s.setCfg fun c => { c with busMaster := on }).masteringResumed
  | .memorySpace on => s.setCfg fun c => { c with memorySpace := on }
  | .msixEnable on => (s.setCfg fun c => { c with msixEnable := on }).flushMsix
  | .functionMask on => (s.setCfg fun c => { c with functionMask := on }).flushMsix
  | .ecrcGenerate on => s.setCfg fun c => { c with ecrcGenerate := on }
  | .ecrcCheck on => s.setCfg fun c => { c with ecrcCheck := on }
  | .tenBitTag on => s.setCfg fun c => { c with tenBitTag := on }
  | .relaxedOrdering on => s.setCfg fun c => { c with relaxedOrdering := on }
  | .maxPayload code => s.setCfg fun c => { c with maxPayload := code }
  | .maxReadRequest code => s.setCfg fun c => { c with maxReadRequest := code }
  | .completionTimeout v => s.setCfg fun c => { c with completionTimeout := v }
  | .aspmL1 on => s.setCfg fun c => { c with aspmL1 := on }
  | .aerClear e => s.setCfg fun c => { c with aer := c.aer.filter fun x => x != e }
  | .aerSeverity e fatal => s.setCfg fun c => { c with aerFatal := (c.aerFatal.filter fun x => x != e) ++ if fatal then [e] else [] }
  | .aerCorrectedClear e => s.setCfg fun c => { c with aerCorrected := c.aerCorrected.filter fun x => x != e }

def execConfigurationWrite (w : ConfigWrite) (s : State) : Host.Outcome State Fault Refusal := s.after <|
  .next (s.configured (configEffect w))

def execBusMasterEnable (s : State) : Host.Outcome State Fault Refusal := s.after <|
  .next (s.configured (configEffect (.busMaster true)))

/-- R92: device work goes on; only memory space is disabled. -/
def execD3hotEntry (s : State) : Host.Outcome State Fault Refusal := s.after <|
  .next (s.configured fun s => s.setCfg fun c => { c with d3hot := true })

def execD0Entry (s : State) : Host.Outcome State Fault Refusal := s.after <|
  .next (s.configured fun s => (s.setCfg fun c => { c with d3hot := false }).masteringResumed)

/-- R85: what was pending is sent. -/
def execMsixUnmask (u : Unmask) (s : State) : Host.Outcome State Fault Refusal := s.after <|
  match u with
  | .vector v => .next (s.bar0Write fun s =>
      ({ s with bar0 := { s.bar0 with msix := s.bar0.msix.modify v fun e => { e with masked := false } } }).flushVector v)
  | .function => .next (s.configured (configEffect (.functionMask false)))
  | .enable => .next (s.configured (configEffect (.msixEnable true)))

/-- R83: the operation that issued a failed read of host memory ends. A thread, whose status record names no such code, ends with HOST_DMA_ERROR
too (DEDUCED, log 29). -/
def State.hostFailed (s : State) (owner : Requester) (request : Nat) : State :=
  if !s.waitsFor owner request then s
  else
    match owner with
    | .dma x e => s.dmaStop x e stHostDmaError 0
    | .thread t => s.threadEnd t stHostDmaError 0 0#64
    | _ => s

/-- Takes an outstanding read of host memory off the list. -/
def State.takeHostRead (s : State) (request : Nat) : Option HostRead × State :=
  (s.hostReads.find? fun r => r.id == request,
    { s with hostReads := s.hostReads.filter fun r => r.id != request })

def execHostCompletionTimeout (request : Nat) (s : State) : Host.Outcome State Fault Refusal := s.after <|
  let a := s.takeHostRead request
  match a.1 with
  | none => .next s
  | some r => .next ((a.2.aer .completionTimeout).hostFailed r.owner request).resumeHeld

/-- R27, R83: the data of a read goes from the port to whoever waits for it. -/
def State.hostData (s : State) (r : HostRead) (bytes : List Byte) : State :=
  let s := s.crossIn r.owner 0 r.len
  if !s.waitsFor r.owner r.id then s
  else
    match r.owner with
    | .dma x e => s.dmaArrive x e r.len (padTo r.len bytes)
    | .thread t => s.threadArrive t r.id bytes
    | _ => s

/-- R83: what a completion does for the operation that issued the read; R90: one for a request no longer outstanding is discarded. -/
def State.hostAnswer (s : State) (request : Nat) (what : HostCompletion) : State :=
  let a := s.takeHostRead request
  match a.1 with
  | none => s
  | some r =>
    (match what with
    | .data bytes => a.2.hostData r bytes
    | .error .timeout => (a.2.aer .completionTimeout).hostFailed r.owner request
    | .error _ => a.2.hostFailed r.owner request).resumeHeld

/-- R83, R86, R90: a completion for a read; a poisoned one is an error. -/
def execHostReadCompletion (request : Nat) (answer : Received HostCompletion) (s : State) : Host.Outcome State Fault Refusal := s.after <|
  .next (s.arrives answer.arrival fun s => s.hostAnswer request (if answer.arrival.poisoned then .error .poisoned else answer.what))

/-- R86. -/
def execUnexpectedCompletion (s : State) : Host.Outcome State Fault Refusal := s.after <|
  .next (if s.linkUp then s.awake.aer .unexpectedCompletion else s)

end Sys2Proof.Machine
end

