-- ==== Sys2Proof/Machine/Windway.lean ====
section
/-! DEFINITION. The Windway fabric, receiving side: training and LINK_INFO (R460, R464, R473, R474), receipt, forwarding and discard of
frames (R466, R471, R472), what each frame type does (R470), remote timeouts (R479). -/

namespace Sys2Proof

open Machine

/-- R471: the frame crossed the link undamaged. -/
def Frame.intact (f : Frame) : Bool := f.fecOk && f.crc == f.crcOf

/-- ARG0's words. -/
def Frame.low (f : Frame) : Word32 := f.arg0.setWidth 32
def Frame.high (f : Frame) : Word32 := (f.arg0 >>> 32).setWidth 32

end Sys2Proof

namespace Sys2Proof.Machine

/-! ## Records (R460, R464, R466, R470, R473, R550) -/

/-- A record of a Windway class about a port. Payload words that R550 leaves open are free values (log 40). -/
def State.portRecord (s : State) (cls severity port : Nat) (payload : Option Nat) : State :=
  let f := s.fresh
  let w := payload.getD (f.1.toNat % 2 ^ 32)
  (if payload.isNone then f.2 else s).log
    { cls := cls, severity := severity, siteKind := 6, site := port, unit := 0xFFFF, injected := false, payload := [w] }

/-! ## Link frames (R470) -/

/-- A link frame. Its DST and HOPS are nowhere stated: free values (log 40). -/
def State.linkFrame (s : State) (type arg0 tag arg1 : Nat) : Frame × State :=
  let f := s.fresh
  ({ f.2.newFrame (f.1.toNat % 4096) type 0 arg0 tag arg1 [] with hops := f.1.toNat / 4096 % 256 }, f.2)

def State.sendLinkFrame (s : State) (p type arg0 tag arg1 : Nat) : State :=
  let f := s.linkFrame type arg0 tag arg1
  f.2.sendLink p f.1

/-- R472: an IDLE. -/
def State.sendIdle (s : State) (p : Nat) : State := s.sendLinkFrame p 0 0 0 0

/-! ## Acknowledgement and resending (R472) -/

/-- R472: a LACK received: the frames up to it leave the retry buffer. -/
def Port.ack (p : Port) (lack : Nat) : Port :=
  match p.retry.findIdx? fun f => f.lseq == lack with
  | some i => { p with retry := p.retry.drop (i + 1), resends := p.resends.drop (i + 1), lacked := lack }
  | none => p

/-- R469: credits that a frame returns. -/
def Port.credit (p : Port) (credit : Word32) : Port :=
  { p with credits := p.credits.mapIdx fun v c => c + field credit.toNat (8 * v + 7) (8 * v) }

/-- R473: a port that retrains: its retry buffer survives. -/
def Port.retrain (p : Port) : Port :=
  { (p.count fun c => { c with retrains := bump c.retrains 1 }) with
    state := .training, inUse := 0#4, nakSent := false, resends := p.resends.map fun _ => 0 }

/-- R472, R473: resends every buffered frame, in order; a port with a frame that has been resent 16 times retrains instead. -/
def State.resend (s : State) (p : Nat) : State :=
  match s.port? p with
  | none => s
  | some x =>
    if x.resends.any fun n => 16 ≤ n then s.modPort p Port.retrain
    else
      let s := s.modPort p fun x =>
        { (x.count fun c => { c with resent := bump c.resent x.retry.length }) with resends := x.resends.map (· + 1) }
      x.retry.foldl (fun s f => s.emit p f) s

/-! ## Receipt (R466, R471, R472, R475) -/

/-- R471: a receiver accepts the frame next. -/
def Port.accepts (p : Port) (f : Frame) : Bool :=
  f.intact && f.type < 12 && (!f.numbered || f.lseq == (p.rxSeq + 1) % 65536)

/-- R471, R472: a discard: counted, and answered with one NAK. -/
def State.discardFrame (s : State) (p : Nat) (x : Port) (f : Frame) : State :=
  let s := s.modPort p fun x => x.count fun c =>
    { c with crcErrors := bump c.crcErrors 1, fecBad := bump c.fecBad (bit (!f.fecOk)) }
  let s := if f.intact && 12 ≤ f.type then s.portRecord 0x0064 0 p none else s
  if x.nakSent then s
  else
    (s.sendLinkFrame p 11 0 0 0).modPort p fun x =>
      { (x.count fun c => { c with naks := bump c.naks 1 }) with nakSent := true }

/-- R469, R472, R475: what every accepted frame does to its port. The credits of a numbered frame are owed back; a hold that is full
withholds them again. -/
def Port.took (p : Port) (f : Frame) : Port :=
  let p := ((p.ack f.lack).credit f.credit).count fun c =>
    { c with framesRx := bump c.framesRx 1, payloadRx := bump c.payloadRx f.payload.length }
  { p with
    nakSent := false
    rxSeq := if f.numbered then f.lseq else p.rxSeq
    owed := if f.numbered then p.owed.modify f.vc fun n => n + f.cost else p.owed }

/-- R466: a frame for another rank is forwarded, or discarded when its HOPS are spent. -/
def State.forward (s : State) (p : Nat) (f : Frame) : State :=
  if f.hops == 0 then
    (s.modPort p fun x => x.count fun c => { c with ttlDrops := bump c.ttlDrops 1 }).portRecord 0x0063 0 p none
  else
    -- R27, R466: between ports of two X-dies the frame crosses the bridges
    let out := (s.ww.fabric.route f.src f.dst).getD p
    (s.crossSpine (.x, p / 4) (.x, out / 4) f.payload.length).sendFrame { f with hops := f.hops - 1 }

/-- R465, R466, R471, R475: a frame of a type arrives at a port that is UP: it is accepted and consumed or forwarded, or discarded; one for a
rank outside the mesh is unreachable (DEDUCED, log 40). A frame of another type, or at a port that is not UP, is not this event (log 5). -/
def State.receive (s : State) (p : Nat) (f : Frame) (type : Nat) (consume : State → State) : State :=
  match s.port? p with
  | none => s
  | some x =>
    if x.state != .up || f.type != type then s
    else if !x.accepts f then s.discardFrame p x f
    else
      let s := s.modPort p fun x => x.took f
      (if !f.numbered then consume s
        else if !s.ww.fabric.reaches f.dst then s.countUnreachable
        else if (s.ww.fabric.turn f.dst).isSome then s.forward p f
        else consume s).pumpPort p

/-! ## Training (R460, R464, R473, R474) -/

/-- R460: the lowest-numbered working group of the widest width: four lanes, two, or one. -/
def laneGroup (lanes : BitVec 4) : BitVec 4 :=
  ([15#4, 3#4, 12#4, 1#4, 2#4, 4#4, 8#4].find? fun g => lanes &&& g == g).getD 0#4

/-- R464: the direction of a port: 2 · dimension, plus 1 toward higher coordinates (DESIGN CHOICE, log 40). -/
def Fabric.direction (f : Fabric) (p : Nat) : Option Nat :=
  (List.range 6).find? fun d => (portsOf (f.mask (d / 2) (d % 2 == 1))).contains p

/-- R464: the rank of the neighbour in a direction. -/
def Fabric.neighbour (f : Fabric) (d : Nat) : Nat :=
  let step := match d / 2 with
    | 0 => 1
    | 1 => f.size 0
    | _ => f.size 0 * f.size 1
  if d % 2 == 1 then f.rank + step else f.rank - step

/-- R464, R475: the LINK_INFO of a port. -/
def State.sendLinkInfo (s : State) (p : Nat) : State :=
  s.sendLinkFrame p 10
    (s.ww.fabric.fabricId.toNat + s.ww.fabric.rank * 2 ^ 32 + p * 2 ^ 44 + (s.ww.fabric.direction p).getD 0 * 2 ^ 48)
    s.fw.startId.toNat 0x08080804

/-- R460, R464: a port in training has found its lanes. -/
def execPortTrained (port : Nat) (lanes : BitVec 4) (s : State) : Host.Outcome State Fault Refusal := s.after <|
  match s.port? port with
  | none => .next s
  | some x =>
    let y := { x with inUse := laneGroup lanes }
    let w := y.lanes
    if x.state != .training || x.lanes != 0 || w == 0 then .next s
    else
      let was := if x.lastLanes == 0 then 4 else x.lastLanes
      let s := s.modPort port fun x => { x with inUse := y.inUse, lastLanes := w }
      let s := if w == was then s else s.portRecord 0x0060 1 port (some w)
      .next (s.sendLinkInfo port)

/-- R474: the peer has been reset. -/
def Port.peerReset (p : Port) : Port :=
  { (p.count fun c => { c with peerResetDrops := bump c.peerResetDrops p.retry.length }) with
    retry := [], resends := [], txSeq := 0, rxSeq := 0, lacked := 0, reordered := none }

/-- R475: credits that LINK_INFO grants, less what the frames to be resent take (DEDUCED, log 40). -/
def Port.grantInitial (p : Port) (arg1 : Word32) : Port :=
  { p with
    credits := (List.range 4).map fun v =>
      64 * field arg1.toNat (8 * v + 7) (8 * v)
        - ((p.retry.filter fun f => f.vc == v).map Frame.cost).foldl (· + ·) 0
    owed := [0, 0, 0, 0] }

/-- R475: LINK_INFO grants the whole buffers of a port anew, so nothing is withheld any more (DEDUCED, log 40). -/
def State.grantAll (s : State) (port : Nat) : State :=
  { s with
    ww := { s.ww with peerHold := updIf (fun q => q.port == some port) (fun q => { q with owes := false }) s.ww.peerHold }
    coll := { s.coll with held := updIf (fun f => f.via.any fun v => v.1 == port) (fun f => { f with owes := false }) s.coll.held } }

/-- R464, R473, R474: LINK_INFO at a port that has trained. -/
def execLinkInfo (port : Nat) (frame : Frame) (s : State) : Host.Outcome State Fault Refusal := s.after <|
  match s.port? port with
  | none => .next s
  | some x =>
    if x.state != .training || x.lanes == 0 || frame.type != 10 || !frame.intact then .next s
    else
      let id := frame.arg0.toNat % 2 ^ 32
      let rank := field frame.arg0.toNat 43 32
      let fits := id == s.ww.fabric.fabricId.toNat
        && (match s.ww.fabric.direction port with | some d => s.ww.fabric.neighbour d == rank | none => false)
      if !fits then
        let s := if x.miswiredLogged then s else s.portRecord 0x0062 1 port (some rank)
        .next (s.modPort port fun x => { x with state := .miswired, inUse := 0#4, miswiredLogged := true })
      else
        let s := s.modPort port fun x =>
          let x := if x.peerStart.isSome && x.peerStart != some frame.tag then x.peerReset else x
          let x := (x.ack frame.lack).count fun c => { c with framesRx := bump c.framesRx 1 }
          { x.grantInitial frame.arg1 with
            state := .up, peerStart := some frame.tag, nakSent := false, miswiredLogged := false }
        .next (((s.grantAll port).resend port).pumpPort port)

/-- R473: the PCS loses alignment, or a lane fails. -/
def execPortRetrain (port : Nat) (s : State) : Host.Outcome State Fault Refusal := s.after <|
  match s.port? port with
  | none => .next s
  | some x =>
    .next (if x.state != .up then s else s.modPort port Port.retrain)

/-- R473: 1 s of training without success. -/
def execPortDown (port : Nat) (s : State) : Host.Outcome State Fault Refusal := s.after <|
  match s.port? port with
  | none => .next s
  | some x =>
    if x.state != .training then .next s
    else .next ((s.modPort port fun x => { x with state := .down, inUse := 0#4 }).portRecord 0x0061 1 port none)

/-- R464, R473: training is tried again. -/
def execTrainingRetry (port : Nat) (s : State) : Host.Outcome State Fault Refusal := s.after <|
  match s.port? port with
  | none => .next s
  | some x =>
    if x.state == .down || x.state == .miswired then .next (s.modPort port fun x => { x with state := .training, inUse := 0#4 })
    else .next s

/-! ## Link frames received -/

/-- R472: an IDLE carries LACK and credits. -/
def execWwIdle (port : Nat) (frame : Frame) (s : State) : Host.Outcome State Fault Refusal := s.after <|
  .next (s.receive port frame 0 id)

/-- R472: a NAK: every buffered frame after its LACK is resent. -/
def execWwNak (port : Nat) (frame : Frame) (s : State) : Host.Outcome State Fault Refusal := s.after <|
  .next (s.receive port frame 11 fun s => s.resend port)

/-- R471: a frame that cannot be accepted; of one that can, nothing (log 5). -/
def execFrameDiscard (port : Nat) (frame : Frame) (s : State) : Host.Outcome State Fault Refusal := s.after <|
  match s.port? port with
  | none => .next s
  | some x => .next (if x.state != .up || x.accepts frame then s else s.discardFrame port x frame)

/-- R472: nothing else to send for 200 ns. -/
def execIdleSend (port : Nat) (s : State) : Host.Outcome State Fault Refusal := s.after <|
  match s.port? port with
  | none => .next s
  | some x => .next (if x.state == .up then s.sendIdle port else s)

/-- R472: 4 µs without progress of LACK. -/
def execRetryTimeout (port : Nat) (s : State) : Host.Outcome State Fault Refusal := s.after <|
  match s.port? port with
  | none => .next s
  | some x => .next (if x.state == .up then s.resend port else s)

/-! ## Requests from peers (R478) -/

/-- R478: the RESPONSE to a request. -/
def State.respondPeer (s : State) (f : Frame) (outcome : Nat) (data : List Byte) : State :=
  s.sendFrame (s.newFrame f.src 4 1 0 f.tag.toNat outcome data)

/-- R478: serves a request, answers it, or keeps it until its fault is resolved. -/
def State.servePeer (s : State) (port : Option Nat) (f : Frame) : State :=
  let g := s.serve f
  match g.1 with
  | .done o data => g.2.respondPeer f o data
  | .held cls acc va => g.2.holdPeer port f cls acc va

def execWwRead (port : Nat) (frame : Frame) (s : State) : Host.Outcome State Fault Refusal := s.after <|
  .next (s.receive port frame 1 fun s => s.servePeer (some port) frame)

def execWwWrite (port : Nat) (frame : Frame) (s : State) : Host.Outcome State Fault Refusal := s.after <|
  .next (s.receive port frame 2 fun s => s.servePeer (some port) frame)

def execWwAmo (port : Nat) (frame : Frame) (s : State) : Host.Outcome State Fault Refusal := s.after <|
  .next (s.receive port frame 3 fun s => s.servePeer (some port) frame)

/-! ## Responses (R477, R479) -/

/-- R479: a thread's remote request fails. One that has ended, and waits for its stores alone, ends with DEVICE_ERROR if it had no error. -/
def State.threadRemoteFailed (s : State) (t : ThreadId) (id record : Nat) : State :=
  let s := s.modThread t fun th => { th with writes := th.writes.filter fun w => w != id }
  match (s.thread? t).bind fun th => th.ending with
  | some (status, _, _) => if status == stOk then s.threadEnd t stDeviceError (record % 65536) 0#64 else s.threadFinish t
  | none => s.threadEnd t stDeviceError (record % 65536) 0#64

/-- R479: a remote request fails, under a cause: its requester ends with DEVICE_ERROR. -/
def State.remoteFailed (s : State) (r : RemoteReq) (cause : Nat) : State :=
  let a := s.remoteError r.rank r.addr cause
  if !s.waitsFor r.owner (2 * r.tag + 1) then a.2
  else
    match r.owner with
    | .dma x e => a.2.dmaStop x e stDeviceError (a.1 % 65536)
    | .thread t => a.2.threadRemoteFailed t (2 * r.tag + 1) a.1
    | _ => a.2

/-- R27, R366, R477: a remote request is answered; its data goes from the port's X-die to the requester. -/
def State.remoteDone (s : State) (r : RemoteReq) (outcome : Nat) (data : List Byte) : State :=
  let s := s.crossIn r.owner (s.ww.fabric.xdieTo r.rank) data.length
  if outcome != 0 then s.remoteFailed r outcome
  else if !s.waitsFor r.owner (2 * r.tag + 1) then s
  else
    match r.owner with
    | .dma x e => s.dmaArrive x e r.len (data.take r.len)
    | .thread t => s.threadArrive t (2 * r.tag + 1) data
    | _ => s

/-- Takes an outstanding request off the list. -/
def State.takeRequest (s : State) (tag : Nat) : Option RemoteReq × State :=
  (s.ww.requests.find? fun r => r.tag == tag,
    { s with ww := { s.ww with requests := s.ww.requests.filter fun r => r.tag != tag } })

/-- R479: a RESPONSE; one that comes after its timeout is discarded and counted. -/
def State.takeResponse (s : State) (tag outcome : Nat) (data : List Byte) : State :=
  let a := s.takeRequest tag
  match a.1 with
  | none => { s with ww := { s.ww with late := bump s.ww.late 1 } }
  | some r => (a.2.remoteDone r outcome data).resumeHeld

def execWwResponse (port : Nat) (frame : Frame) (s : State) : Host.Outcome State Fault Refusal := s.after <|
  .next (s.receive port frame 4 fun s => s.takeResponse frame.tag.toNat (field frame.arg1.toNat 7 0) frame.payload)

/-- R479: no RESPONSE within 10 s. -/
def execRemoteTimeout (tag : Nat) (s : State) : Host.Outcome State Fault Refusal := s.after <|
  let a := s.takeRequest tag
  match a.1 with
  | none => .next s
  | some r => .next (({ a.2 with ww := { a.2.ww with timeouts := bump a.2.ww.timeouts 1 } }).remoteFailed r 4).resumeHeld

/-! ## Collective frames (R415, R426, R475, R476) -/

/-- R475: bytes of a bucket enter the owner's inbound hold. -/
def execWwBucket (port : Nat) (frame : Frame) (s : State) : Host.Outcome State Fault Refusal := s.after <|
  .next (s.receive port frame 5 fun s => s.takeBucket frame.low frame.src frame.high.toNat frame.arg1 frame.tag.toNat frame.payload)

/-- R476: a GRANT returns window bytes. -/
def execWwGrant (port : Nat) (frame : Frame) (s : State) : Host.Outcome State Fault Refusal := s.after <|
  .next (s.receive port frame 6 fun s =>
    match s.groupOfCrc frame.low with
    | none => s
    | some g =>
      match g.rank? frame.src with
      | none => s
      | some i => (s.modGroup g.num fun g => g.setSpent i (g.spent i - frame.arg1.toNat)).collect)

/-- A frame enters a hold, and what waits in the holds is taken in. -/
def State.holdAndCollect (s : State) (port : Nat) (f : Frame) : State :=
  (s.enterHold ⟨f.type, f.low, f.src, f.high, f.tag, f.arg1, f.payload, some (port, f.vc), false⟩).collect

/-- R415. -/
def execWwResult (port : Nat) (frame : Frame) (s : State) : Host.Outcome State Fault Refusal := s.after <|
  .next (s.receive port frame 7 fun s => s.holdAndCollect port frame)

/-- R426. -/
def execWwStatsIn (port : Nat) (frame : Frame) (s : State) : Host.Outcome State Fault Refusal := s.after <|
  .next (s.receive port frame 8 fun s => s.holdAndCollect port frame)

/-- R426. -/
def execWwStatsOut (port : Nat) (frame : Frame) (s : State) : Host.Outcome State Fault Refusal := s.after <|
  .next (s.receive port frame 9 fun s => s.holdAndCollect port frame)

end Sys2Proof.Machine
end

