-- ==== Sys2Proof/Machine/Faults.lean ====
section
/-! DEFINITION. Fault events and their answers (R368 to R373): FAULT_REPORT and FAULT_REPLY. -/

namespace Sys2Proof.Machine

/-! ## Suspensions by requester -/

def State.mapPorts (s : State) (f : List PortBurst → List PortBurst) : State :=
  { s with coll := { s.coll with portBursts := f s.coll.portBursts } }

def State.mapPeers (s : State) (f : List PeerReq → List PeerReq) : State :=
  { s with ww := { s.ww with peerHold := f s.ww.peerHold } }

def RoutingEngine.mapActive (u : RoutingEngine) (f : RoutingOp → RoutingOp) : RoutingEngine :=
  { u with active := u.active.map f }

def ConvUnit.mapOps (u : ConvUnit) (f : ConvOp → ConvOp) : ConvUnit := { u with ops := u.ops.map f }

def State.suspensions (s : State) (r : Requester) : List Suspension :=
  match r with
  | .thread t => (s.thread? t).elim [] fun th => th.suspended.toList
  | .matrix e => (s.cluster? e).elim [] fun c =>
      (c.matrix.active.toList ++ c.matrix.preempted.toList).filterMap fun op => op.suspended
  | .vector e => (s.cluster? e).elim [] fun c => c.vector.active.toList.filterMap fun op => op.suspended
  | .conventional d => (s.conv[d]?).elim [] fun u => u.ops.filterMap fun op => op.suspended
  | .routing x => (s.router? x).elim [] fun u => u.active.toList.filterMap fun op => op.suspended
  | .dma x e => (s.job? x e).elim [] fun j => j.suspended.toList
  | .consort x => (s.consort? x).elim [] fun c => (c.active.toList ++ c.running).filterMap fun op => op.suspended
  | .port d u => (s.coll.portBursts.filter fun p => p.die == d && p.unit == u).filterMap fun p => p.suspended
  | .update l => (s.update? l).elim [] fun op => op.stopped.map fun w => w.fault
  | .peer i => (s.ww.peerHold.filter fun p => p.index == i).map fun p => p.suspended

/-- Changes the suspensions of a requester. -/
def State.mapSuspensions (s : State) (r : Requester) (f : Suspension → Suspension) : State :=
  match r with
  | .thread t => s.modThread t fun th => { th with suspended := th.suspended.map f }
  | .matrix e => s.modMatrix e fun m =>
      { m with
        active := m.active.map fun op => { op with suspended := op.suspended.map f }
        preempted := m.preempted.map fun op => { op with suspended := op.suspended.map f } }
  | .vector e => s.modVector e fun v => { v with active := v.active.map fun op => { op with suspended := op.suspended.map f } }
  | .conventional d =>
    { s with conv := s.conv.modify d fun u => u.mapOps fun op => { op with suspended := op.suspended.map f } }
  | .routing x =>
    { s with routers := s.routers.modify x fun u => u.mapActive fun op => { op with suspended := op.suspended.map f } }
  | .dma x e => s.setJob x e ((s.job? x e).map fun j => { j with suspended := j.suspended.map f })
  | .consort x => s.modConsort x fun c =>
      { c with
        active := c.active.map fun op => { op with suspended := op.suspended.map f }
        running := c.running.map fun op => { op with suspended := op.suspended.map f } }
  | .port d u =>
    s.mapPorts (updIf (fun p => p.die == d && p.unit == u) fun p => { p with suspended := p.suspended.map f })
  | .update l => s.modUpdate l fun op => { op with stopped := op.stopped.map fun w => { w with fault := f w.fault } }
  | .peer i =>
    s.mapPeers (updIf (fun p => p.index == i) fun p => { p with suspended := f p.suspended })

/-! ## Whose event it is (R369, R370) -/

/-- R369: ACCESS: an accumulate or an update counts as ATOMIC. -/
def accessOf (r : Requester) (x : Suspension) : Nat :=
  match r with
  | .port _ _ => 3
  | .update _ => 3
  | _ => x.acc

/-- Carrel, QUEUE and TAG of a queue's work. -/
def State.queueOwner (s : State) (q uid : Nat) : Nat × Nat × Word32 :=
  match s.queue? q with
  | none => (0, 0xFFFF, 0#32)
  | some x => (x.carrel, q, ((x.items.find? fun it => it.uid == uid).map fun it => it.tag).getD 0#32)

/-- R369: the carrel, QUEUE and TAG of work by its issuer; a thread's work keeps those of the launch that issued it. -/
def State.issuerOwner (s : State) (i : Issuer) (uid : Nat) : Nat × Nat × Word32 :=
  match i with
  | .queue q => s.queueOwner q uid
  | .thread _ q tag => ((s.queue? q).elim 0 fun x => x.carrel, q, tag)
  | .debug _ => (0, 0xFFFF, 0#32)

def State.groupCarrel (s : State) (g : Nat) : Nat := (s.group? g).elim 0 fun g => g.carrel

/-- The work of a suspended requester, where a descriptor carries it. -/
def State.stoppedWork (s : State) (r : Requester) : Option Work :=
  match r with
  | .matrix e => (s.cluster? e).bind fun c =>
      ((c.matrix.active.toList ++ c.matrix.preempted.toList).find? fun op => op.suspended.isSome).map fun op => op.work
  | .vector e => (s.cluster? e).bind fun c => c.vector.active.map fun op => op.work
  | .conventional d => (s.conv[d]?).bind fun u => u.ops.head?.map fun op => op.work
  | .routing x => (s.router? x).bind fun u => u.active.map fun op => op.work
  | .consort x => (s.consort? x).bind fun c =>
      ((c.active.toList ++ c.running).find? fun op => op.suspended.isSome).map fun op => op.work
  | _ => none

/-- R369: the carrel, QUEUE and TAG of a fault event. -/
def State.eventOwner (s : State) (r : Requester) : Nat × Nat × Word32 :=
  match r with
  | .thread t => (s.thread? t).elim (0, 0xFFFF, 0#32) fun th => s.queueOwner th.queue th.uid
  | .dma x e => (s.job? x e).elim (0, 0xFFFF, 0#32) fun j => s.queueOwner j.queue j.uid
  | .consort x =>
    let o := (s.stoppedWork r).elim (0, 0xFFFF, 0#32) fun w => s.issuerOwner w.issuer w.uid
    let g := (s.consort? x).bind fun c => (c.active.toList ++ c.running).find? fun op => op.suspended.isSome
    (g.elim 0 fun op => s.groupCarrel op.group, o.2)
  | .port d u =>
    let p := s.coll.portBursts.find? fun p => p.die == d && p.unit == u && p.suspended.isSome
    (p.elim 0 fun p => s.groupCarrel p.group, 0xFFFF, 0#32)
  | .update l => ((s.update? l).elim 0 fun op => op.carrel, 0xFFFF, 0#32)
  | .peer _ => (0, 0xFFFF, 0#32)
  | _ => (s.stoppedWork r).elim (0, 0xFFFF, 0#32) fun w => s.issuerOwner w.issuer w.uid

/-- R370: bits [31:20] of the FAULT_ID of a requester's suspension; an update's names the unit that met it. A peer's are nowhere stated: free values (log 34). -/
def State.faultPrefix (s : State) (r : Requester) (x : Suspension) : Nat × State :=
  let code (kind die unit : Nat) : Nat × State := (kind * 256 + die % 16 * 16 + unit % 16, s)
  match r with
  | .thread t => code 0 t.at_.cdie t.at_.cluster
  | .matrix e => code 1 e.cdie e.cluster
  | .vector e => code 2 e.cdie e.cluster
  | .conventional d => code 3 d 0
  | .routing d => code 4 d 0
  | .dma d e => code 5 d e
  | .consort d => code 6 d 0
  | .port d u => code 7 d u
  | .update l =>
    let w := (s.update? l).bind fun op => op.stopped.find? fun w => w.fault == x
    w.elim (code 8 0 0) fun w => code 8 w.unit.2.1 w.unit.2.2
  | .peer _ => (let f := s.fresh; (f.1.toNat % 4096, f.2))

/-- R370: the next sequence under which no outstanding ID is equal; at most 1,024 are outstanding. -/
def freshId (used : List Word32) (pre : Nat) : Nat → Nat → Nat
  | 0, seq => seq
  | fuel + 1, seq =>
    if used.contains (BitVec.ofNat 32 (pre * 2 ^ 20 + seq % 2 ^ 20)) then freshId used pre fuel (seq + 1) else seq

/-! ## Assigning an ID (R368) -/

/-- R376: a suspension that has its FAULT_ID shows in a DMA item's record. -/
def State.faultKnown (s : State) (r : Requester) (id : Word32) : State :=
  match r with
  | .dma x e => s.progressStopped x e id
  | _ => s

/-- R368 step 2, R369, R376: a new FAULT_ID and its event. -/
def State.assignFault (s : State) (r : Requester) (x : Suspension) (pick : Suspension → Bool) : State :=
  let p := s.faultPrefix r x
  let s := p.2
  let seq := freshId (s.faults.map fun f => f.id) p.1 1025 s.faultSeq
  let id : Word32 := BitVec.ofNat 32 (p.1 * 2 ^ 20 + seq % 2 ^ 20)
  let acc := accessOf r x
  let o := s.eventOwner r
  let s := ({ s with faultSeq := (seq + 1) % 2 ^ 20, faults := s.faults ++ [FaultRec.mk id x.cls acc (x.va / 65536) [r]] }).mapSuspensions r
    fun y => if pick y then { y with reported := true, faultId := some id } else y
  (s.post o.1
    { seq := 0#32, ticket := id, opcode := 0x00F0, queue := o.2.1, tag := o.2.2, status := 0x0130,
      detail := x.cls + 16 * acc + 128 * bit x.peer, lo := BitVec.ofNat 32 x.va, hi := BitVec.ofNat 32 (x.va / 2 ^ 32) }).faultKnown r id

/-- R368 steps 2 and 3: a fault gets an ID, joins one, or waits for one. -/
def State.raiseFault (s : State) (r : Requester) (x : Suspension) (pick : Suspension → Bool) : State :=
  let acc := accessOf r x
  match s.faults.find? fun f => f.cls == x.cls && f.acc == acc && f.span == x.va / 65536 with
  | some f =>
    let s := { s with faults := updIf (fun g => g.id == f.id) (fun g => { g with waiters := g.waiters ++ [r] }) s.faults }
    (s.mapSuspensions r fun y => if pick y then { y with reported := true, faultId := some f.id } else y).faultKnown r f.id
  | none =>
    if 1024 ≤ s.faults.length then
      ({ s with faultWait := s.faultWait ++ [r] }).mapSuspensions r fun y => if pick y then { y with reported := true } else y
    else s.assignFault r x pick

/-- R368: an ID has freed: the requesters that wait for one are served, in order of suspension. -/
def State.serveWaiting : Nat → State → State
  | 0, s => s
  | n + 1, s =>
    match s.faultWait with
    | [] => s
    | r :: rest =>
      if 1024 ≤ s.faults.length then s
      else
        let s := { s with faultWait := rest }
        let pick (y : Suspension) : Bool := y.reported && y.faultId.isNone
        match (s.suspensions r).find? pick with
        | none => State.serveWaiting n s
        | some x => State.serveWaiting n (s.raiseFault r x (fun y => y == x))

/-! ## Resuming (R368, R371, R373) -/

/-- R371, R373: the work of a requester goes on from where it stopped, where clear marks the suspension. -/
def State.resume (s : State) (r : Requester) (clear : Suspension → Bool) : State :=
  let off (o : Option Suspension) : Option Suspension := o.filter fun y => !clear y
  match r with
  | .thread t =>
    let s := s.modThread t fun th =>
      { th with suspended := off th.suspended, state := if th.state == .suspended && th.ending.isNone then .running else th.state }
    if ((s.thread? t).elim false fun th => th.ending.isSome) then s.threadFinish t else s
  | .matrix e =>
    let s := s.modMatrix e fun m =>
      { m with
        active := m.active.map fun op => { op with suspended := off op.suspended }
        preempted := m.preempted.map fun op => { op with suspended := off op.suspended } }
    match (s.cluster? e).bind fun c => c.matrix.preempted with
    | none => s
    | some op =>
      match op.ended, op.suspended with
      | some x, none => s.preemptedEnd e op x
      | _, _ => s
  | .vector e => s.modVector e fun v => { v with active := v.active.map fun op => { op with suspended := off op.suspended } }
  | .conventional d =>
    { s with conv := s.conv.modify d fun u => u.mapOps fun op => { op with suspended := off op.suspended } }
  | .routing x =>
    { s with routers := s.routers.modify x fun u => u.mapActive fun op => { op with suspended := off op.suspended } }
  | .dma x e => (s.setJob x e ((s.job? x e).map fun j => { j with suspended := off j.suspended, owed := false })).dmaGo x e
  | .consort x =>
    (s.modConsort x fun c =>
      { c with
        active := c.active.map fun op => { op with suspended := off op.suspended }
        running := c.running.map fun op => { op with suspended := off op.suspended } }).collect
  | .port d u =>
    let mine (p : PortBurst) : Bool := p.die == d && p.unit == u && p.suspended.any clear
    let bs := (s.coll.portBursts.filter mine).map fun p => (p.group, p.bucket)
    let s := s.mapPorts (updIf mine fun p => { p with suspended := none })
    (bs.eraseDups.foldl (fun s b => (s.group? b.1).elim s fun g => s.settleBucket g b.2) s).collect
  | .update l => s.modUpdate l fun op => { op with stopped := op.stopped.filter fun w => !clear w.fault }
  | .peer i =>
    match s.ww.peerHold.find? fun p => p.index == i with
    | none => s
    | some p =>
      let s := s.dropPeer p
      if p.frame.src != s.ww.fabric.rank then s.servePeer p.port p.frame
      else
        let g := s.serve p.frame
        match g.1 with
        | .done o data => g.2.takeResponse p.frame.tag.toNat o data
        | .held cls acc va => g.2.holdPeer p.port p.frame cls acc va

/-! ## The second walk (R368) -/

def firstUnreported (xs : List Suspension) : Option Suspension := xs.find? fun x => !x.reported

/-- R368 step 1, R371: another walk for a suspended access; none: it succeeds, else the class of its fault now (R357). -/
def State.walkAgain (s : State) (x : Suspension) : Option Nat :=
  match s.translate (if x.peer then .peer else .device) (accOfCode x.acc) x.va 1 with
  | .ok _ => none
  | .error c => some c

/-! ## Ends by a fault (R371, R372) -/

/-- How work ends whose fault is not resolved: under ABORT (R371), or because its session has ended (R372). -/
abbrev Fate := Suspension → Ending

def abortEnd : Fate := fun x => ⟨stTranslationFault, x.cls⟩
def discardEnd : Fate := fun _ => ⟨stDiscarded, 0⟩

/-- R256, R371: the matrix operation that waits under a fault ends. One that waits to write its record ends without it (R230). -/
def State.abortMatrix (s : State) (e : ClusterId) (how : Fate) (hit : Suspension → Bool) : State :=
  match s.cluster? e with
  | none => s
  | some c =>
    let s := match c.matrix.active with
      | none => s
      | some op =>
        (match op.suspended with
        | none => s
        | some x =>
          if !hit x then s
          else if op.ended.isSome then s.matDone e op (how x)
          else s.setActive e (some (s.monitor { op with suspended := none, ended := some (how x) } true)))
    match c.matrix.preempted with
    | none => s
    | some op =>
      match op.suspended with
      | none => s
      | some x =>
        if !hit x then s
        else if op.ended.isSome then s.matDone e op (how x)
        else
          let op := s.monitor { op with suspended := none, ended := some (how x) } true
          (s.modMatrix e fun m => { m with spilled := none }).preemptedEnd e op (how x)

/-- R422: ABORT of a reduction. -/
def State.abortReduce (s : State) (x : Nat) (op : ReduceOp) (how : Fate) (y : Suspension) : State :=
  let e : Ending := ⟨0x0140, 0⟩
  if op.ended.isSome then s.reduceDone op (how y)
  else if op.stats then s.closeReduce x { op with suspended := none, ended := some e } e
  else
    match s.consort? x, s.group? op.group with
    | some c, some g =>
      if c.active.any fun a => a.work.uid == op.work.uid then
        s.reduceSent x ({ op with begun := true }.abortRest g e)
      else (s.modRunning op.work.uid fun op => { op with suspended := none, aborted := some e }).collect
    | _, _ => s

/-- R422: a burst that makes its bucket's sum ABORTED. -/
def PortBurst.abort (p : PortBurst) : PortBurst :=
  { p with suspended := none, got := p.got.map fun c => { c with aborted := true } }

/-- R453: an update's unit ends it: at its status record or done word, what follows is left undone. -/
def State.abortUpdate (s : State) (l : Nat) (op : UpdateOp) (e : Ending) : State :=
  if op.recorded then s.dropUpdate op ((s.schedule? l).elim false fun e => (Schedule.of e.bytes).notify) e
  else s.modUpdate l fun op => { op.finish e with recorded := op.ended.isSome }

/-- R371, R422, R453, R478: the work of a requester ends. -/
def State.abort (s : State) (r : Requester) (how : Fate) (hit : Suspension → Bool) : State :=
  match r with
  | .thread t =>
    (match s.thread? t with
    | none => s
    | some th =>
      match th.suspended with
      | none => s
      | some x =>
        if !hit x then s
        else if th.ending.isSome then s.threadGone t th (how x).status (how x).detail 0#64
        else s.threadEnd t (how x).status (how x).detail 0#64)
  | .matrix e => s.abortMatrix e how hit
  | .vector e =>
    (match (s.cluster? e).bind fun c => c.vector.active with
    | none => s
    | some op =>
      match op.suspended with
      | none => s
      | some x =>
        if !hit x then s
        else if op.ended.isSome then s.vecDone e op (how x) 0#64
        else (s.leaveMatrixQueue e op.work).setVector e (some { op with suspended := none, ended := some (how x) }))
  | .conventional d =>
    (match (s.conv[d]?).bind fun u => u.ops.head? with
    | none => s
    | some op =>
      match op.suspended with
      | none => s
      | some x =>
        if !hit x then s
        else if op.ended.isSome then s.convDone d op (how x)
        else s.setConv d { op with suspended := none, ended := some (how x) })
  | .routing xd =>
    (match (s.router? xd).bind fun u => u.active with
    | none => s
    | some op =>
      match op.suspended with
      | none => s
      | some x =>
        if !hit x then s
        else if op.ended.isSome then s.routingDone xd op (how x)
        else s.setRouting xd (some { op with suspended := none, ended := some (how x) }))
  | .dma x e =>
    (match (s.job? x e).bind fun j => j.suspended with
    | some y => if hit y then s.dmaStop x e (how y).status (how y).detail else s
    | none => s)
  | .consort x =>
    (match s.consort? x with
    | none => s
    | some c =>
      (c.active.toList ++ c.running).foldl (fun s op =>
        match op.suspended with
        | some y => if hit y then s.abortReduce x op how y else s
        | none => s) s)
  | .port d u =>
    let mine (p : PortBurst) : Bool := p.die == d && p.unit == u && p.suspended.any hit
    let bs := ((s.coll.portBursts.filter mine).map fun p => (p.group, p.bucket)).eraseDups
    let s := s.mapPorts (updIf mine PortBurst.abort)
    (bs.foldl (fun s b => (s.group? b.1).elim s fun g => s.settleBucket g b.2) s).collect
  | .update l =>
    (match (s.update? l).bind fun op => (op.stopped.find? fun w => hit w.fault).map fun w => (op, w.fault) with
    | none => s
    | some (op, x) => s.abortUpdate l op (how x))
  | .peer i =>
    match s.ww.peerHold.find? fun p => p.index == i with
    | none => s
    | some p =>
      let s := s.dropPeer p
      if p.frame.src != s.ww.fabric.rank then s.respondPeer p.frame 1 [] else s.takeResponse p.frame.tag.toNat 1 []

/-! ## FAULT_REPORT (R368) -/

/-- R357, R368, R371: a walk has failed again, with class c: a fault of that class; under a class that does not suspend, the access is made
again, and ends the work. -/
def State.faultAgain (s : State) (r : Requester) (x : Suspension) (c : Nat) : State :=
  if suspends c then
    let x' := { x with cls := c, reported := false, faultId := none }
    (s.mapSuspensions r fun y => if y == x then x' else y).raiseFault r x' fun y => y == x'
  else s.resume r fun y => y == x

/-- R368; R117: while a DETACH waits no fault event can be answered, and the work ends. -/
def execFaultReport (r : Requester) (s : State) : Host.Outcome State Fault Refusal := s.after <|
  match firstUnreported (s.suspensions r) with
  | none => .next s
  | some x =>
    if !s.enginesRun then .next s
    else
      match s.walkAgain x with
      | none => .next (({ s with host := { s.host with faultsRetried := bump s.host.faultsRetried 1 } }).resume r fun y => y == x)
      | some c =>
        if s.session.detaching.isSome then .next (s.abort r discardEnd fun y => y == x)
        else .next (s.faultAgain r x c)

/-! ## FAULT_REPLY (R371) -/

/-- R371: one waiter's suspension under an ID translates again: it resumes, or raises a new fault. -/
def State.retryOne (s : State) (r : Requester) (x : Suspension) : State :=
  match s.walkAgain x with
  | none => s.resume r fun y => y == x
  | some c => s.faultAgain r x c

/-- R371: RETRY or ABORT of every waiter. -/
def State.answerFault (s : State) (f : FaultRec) (abort : Bool) : State :=
  let hit (y : Suspension) : Bool := y.faultId == some f.id
  let s := { s with faults := s.faults.filter fun g => g.id != f.id }
  let s := f.waiters.eraseDups.foldl (fun s r =>
    if abort then s.abort r abortEnd hit else ((s.suspensions r).filter hit).foldl (fun s x => s.retryOne r x) s) s
  s.serveWaiting (s.faultWait.length + 1)

/-- R371: FAULT_REPLY. -/
def faultReplyBody (pl : List Byte) (s : State) : Answer × State :=
  let id : Word32 := BitVec.ofNat 32 (get32 pl 0)
  match s.faults.find? fun f => f.id == id with
  | none => (ansField 0, s)
  | some f =>
    if 1 < get8 pl 4 then (ansField 4, s)
    else (ansOk [], s.answerFault f (get8 pl 4 == 1))

def execFaultReply (carrel : Nat) (s : State) : Host.Outcome State Fault Refusal := s.after <| takeRing carrel 0x0036 faultReplyBody s

end Sys2Proof.Machine
end

