-- ==== Sys2Proof/Machine/Identity.lean ====
section
/-! DEFINITION. The identity engine: keys, the certificate chain and attestation (R527 to R542). -/

namespace Sys2Proof.Machine

/-- R530, R534: the attestation key of an image on this device. -/
def State.deriveAk (s : State) (i : Image) : BitVec 384 :=
  Config.akId s.fuses.uds.toNat s.fuses.serial.toNat s.fuses.romVersion.toNat i.digest.toNat i.svn.toNat

/-- R535: the certificate chain. -/
def State.chain (s : State) : List Byte := Config.akCertificate s.fw.ak ++ s.fuses.dikCert ++ s.fuses.caCert

/-- R539: the identity engine fails its self-test. -/
def State.identityFailed (s : State) : Answer × State :=
  let a := s.record { cls := 0x0072, severity := 2, siteKind := 1, site := 0, unit := 0xFFFF, injected := false, payload := [] }
  (⟨stDeviceError, a.1 % 65536, [], 0#32⟩, a.2)

/-- R536: GET_IDENTITY. -/
def getIdentityBody (engineOk : Bool) (pl : List Byte) (s : State) : Answer × State :=
  let off := get32 pl 0
  let chain := s.chain
  if !engineOk then s.identityFailed
  else if chain.length < off then (ansField 0, s)
  else (ansOk (leBytes 12 s.fuses.serial.toNat ++ leBytes 4 chain.length ++ (chain.drop off).take 960), s)

def execGetIdentity (engineOk : Bool) (s : State) : Host.Outcome State Fault Refusal := s.after <|
  takeRing 0 0x0080 (getIdentityBody engineOk) s

/-- R538: the word at 0x090. -/
def State.attestWord (s : State) : Nat :=
  s.bar0.lock.toNat + 32 * bit s.fw.debugOn + 64 * bit s.fw.debugEver + 128 * bit (!s.injections.isEmpty)
    + 256 * bit s.fw.injectEver + 512 * bit s.fw.nearKeySet + 1024 * bit s.fw.depKeySet + 2048 * bit s.fw.ptBaseSet

def noImage : Image := ⟨0#32, 0#32, 0#32, 0#384⟩

/-- R538: bytes 0x000 to 0x11F of the report. -/
def State.reportBody (s : State) (select seq : Nat) (nonce : List Byte) : List Byte :=
  let run := s.fw.running.getD noImage
  let staged := s.fw.staged.getD noImage
  leBytes 4 0x52544151 ++ leBytes 2 0x0100 ++ leBytes 2 384 ++ leBytes 4 select ++ leBytes 4 seq
    ++ leBytes 12 s.fuses.serial.toNat ++ leBytes 4 s.fuses.part.word ++ nonce ++ beBytes 48 run.digest.toNat
    ++ leBytes 4 run.build.toNat ++ leBytes 4 run.svn.toNat ++ leBytes 4 run.uadin.toNat ++ leBytes 4 s.fuses.romVersion.toNat
    ++ leBytes 4 s.attestWord ++ leBytes 4 s.fw.activations.toNat ++ leBytes 4 s.fw.refused.toNat
    ++ leBytes 4 s.fuses.svnMin.toNat
    ++ (if bitAt select 0 then leBytes 4 s.catalogue.layoutCrc ++ leBytes 4 s.catalogue.fullCrc
          ++ leBytes 4 s.catalogue.generation.toNat else zeros 12)
    ++ zeros 4
    ++ (if bitAt select 1 then beBytes 48 staged.digest.toNat ++ leBytes 4 staged.build.toNat ++ leBytes 4 staged.svn.toNat
          else zeros 56)
    ++ zeros 8 ++ beBytes 48 s.fw.ak.toNat

/-- R537, R538: ATTEST. -/
def attestBody (engineOk : Bool) (pl : List Byte) (s : State) : Answer × State :=
  let select := get32 pl 0x30
  if !engineOk then s.identityFailed
  else if 3 < select then (ansField 0x30, s)
  else
    let seq := s.fw.reportSeq + 1#32
    let body := s.reportBody select seq.toNat (pl.take 48)
    let sig := Config.akSign s.fw.ak body
    (ansOk (body ++ beBytes 48 sig.1.toNat ++ beBytes 48 sig.2.toNat), { s with fw := { s.fw with reportSeq := seq } })

def execAttest (engineOk : Bool) (s : State) : Host.Outcome State Fault Refusal := s.after <|
  takeRing 0 0x0081 (attestBody engineOk) s

end Sys2Proof.Machine
end

