-- ==== Sys2Proof/Machine/Firmware.lean ====
section
/-! DEFINITION. Firmware: loading an image (R97 to R100, R563), phases 7 and 8 of a start (R95, R546, R549, R551, R552, R461 to R463, R524),
and replacing the image while it runs (R122 to R126). -/

namespace Sys2Proof.Machine

/-! ## Images (R97, R99, R532) -/

/-- The fields of an image that the checks and the identity engine read. -/
def imageOf (b : List Byte) : Image :=
  ⟨BitVec.ofNat 32 (get32 b 0x10), BitVec.ofNat 32 (get32 b 0x14), BitVec.ofNat 32 (get32 b 0x0C),
    BitVec.ofNat 384 (beNat ((b.drop 0x20).take 48))⟩

/-- R99 step 3. -/
def imageMalformed (b : List Byte) (pages : Nat) : Bool :=
  get32 b 0 != 0x49574651 || get16 b 4 != 0x0100 || get16 b 6 != 512 || get32 b 8 != 4096 * pages || get32 b 0x18 / 256 != 0
    || get32 b 0x1C != 0 || ((b.drop 0xB0).take 0x150).any fun x => x != 0#8

/-- R99 step 5, R532: the body's digest, and the signature under a key that is not revoked (log 17). -/
def State.signed (s : State) (b : List Byte) (sigOk : Bool) : Bool :=
  sha384 (b.drop 512) == (b.drop 0x20).take 48 && get8 b 0x18 < 4 && !s.fuses.revokedKeys.getLsbD (get8 b 0x18) && sigOk

/-- R98: the bytes of n pages whose addresses a list in host memory gives. -/
def hostPages (h : HostView) (list n : Nat) : Option (List Byte) := do
  let es ← hostBytes h list (8 * n)
  let ps ← (List.range n).mapM fun i => hostBytes h (get64 es (8 * i)) 4096
  pure ps.flatten

/-- R99 steps 3 to 5 on an image that has been read; least is the SVN it must have. -/
def State.checkImage (s : State) (b : List Byte) (pages least : Nat) (sigOk : Bool) : Except Nat Image :=
  if imageMalformed b pages then .error stBadImage
  else if get32 b 0x14 < least then .error stRollback
  else if !s.signed b sigOk then .error stBadSignature
  else .ok (imageOf b)

/-- R538: an image is refused. -/
def State.refuseImage (s : State) : State := { s with fw := { s.fw with refused := bump s.fw.refused 1 } }

/-! ## LOAD_FIRMWARE -/

/-- R98, R99: the image and the history, or the status of the refusal. -/
def State.readImage (s : State) (h : HostView) (sigOk : Bool) (list pages hist histPages : Nat) : Except Nat (Image × List Byte) :=
  if !s.cfg.busMaster then .error stNoMaster
  else
    match hostPages h list pages, (if histPages == 0 then some [] else hostPages h hist histPages) with
    | some b, some l =>
      (match s.checkImage b pages s.fuses.svnMin.toNat sigOk with
      | .ok i => .ok (i, l)
      | .error e => .error e)
    | _, _ => .error stHostDmaError

/-- R563: the first bad field. -/
def loadBad (pl : List Byte) : Option Nat :=
  let lp := get32 pl 0x0C
  firstBad [(0, get64 pl 0 % 8 != 0), (8, get32 pl 8 == 0 || 8192 < get32 pl 8), (0x0C, 1024 < lp),
    (0x10, lp != 0 && get64 pl 0x10 % 8 != 0)]

/-- R95 phase 6, R98, R99, R534. -/
def loadFirmwareBody (h : HostView) (sigOk : Bool) (pl : List Byte) (s : State) : Answer × State :=
  match loadBad pl with
  | some f => (ansField f, s)
  | none =>
    let s := s.setStart .fwLoading 0
    match s.readImage h sigOk (get64 pl 0) (get32 pl 8) (get64 pl 0x10) (get32 pl 0x0C) with
    | .error e => (ans e, s.refuseImage.setStart .fwRejected e)
    | .ok (i, l) =>
      let s := { s with fw := { s.fw with running := some i, ak := s.deriveAk i, history := chunks 64 (l.length / 64) l } }
      (ansOk (leBytes 4 i.build.toNat ++ leBytes 4 i.uadin.toNat), s.setStart .fwStarting 0)

/-- R80: a command that reads host memory waits while mastering is held back though Bus Master Enable is 1. -/
def State.readsHeld (s : State) : Bool := s.cfg.busMaster && !s.canMaster

def execLoadFirmware (host : HostView) (sigOk : Bool) (s : State) : Host.Outcome State Fault Refusal := s.after <|
  s.unlessHeld 0 0x0001 (fun pl => (loadBad pl).isNone && s.readsHeld) (takeRing 0 0x0001 (loadFirmwareBody host sigOk) s)

/-! ## The Ledger history (R100, R546, R549, R552) -/

/-- R550: the record classes. -/
def recordClasses : List Nat :=
  [0x0001, 0x0010, 0x0011, 0x0012, 0x0013, 0x0020, 0x0021, 0x0022, 0x0023, 0x0030, 0x0031, 0x0040, 0x0041, 0x0050,
   0x0060, 0x0061, 0x0062, 0x0063, 0x0064, 0x0065, 0x0066, 0x0070, 0x0071, 0x0072]

/-- R549: a history record is accepted. -/
def historyOk (serial : BitVec 96) (r : List Byte) : Bool :=
  let w := get32 r 4
  crc32 (r.take 60) == get32 r 0x3C && recordClasses.contains (w % 65536) && field w 19 18 == 0 && field w 31 25 == 0
    && getLe r 0x10 12 == serial.toNat

/-- R549: a place that holds no record. -/
def historyPad (r : List Byte) : Bool := r.all fun b => b == 0#8

/-- R552: what substitution has found so far: origins, and the physical clusters that have failed. -/
structure Substitution where
  phys   : Physical
  failed : List (Nat × Nat)

/-- R552: a physical cluster fails. -/
def Substitution.cluster (x : Substitution) (cdie ph : Nat) (ref : Word32) : Substitution :=
  { phys := x.phys.dropCluster x.failed cdie ph 2 ref, failed := x.failed ++ [(cdie, ph)] }

/-- R552: one history record. -/
def Substitution.take (p : Part) (x : Substitution) (r : List Byte) : Substitution :=
  let w := get32 r 4
  let site := get16 r 8
  let unit := get16 r 0x0A
  let ref := BitVec.ofNat 32 (get32 r 0)
  match w % 65536 with
  | 0x0010 => x.cluster (site / 16) unit ref
  | 0x0011 =>
    { x with phys := x.phys.dropChannel p (if field w 23 20 == 4 then .dep else .near) site unit (bitAt (get32 r 0x20) 24) 2 ref }
  | 0x0012 => { x with phys := x.phys.dropLane site (get32 r 0x20 % 2) unit }
  | 0x0013 => { x with phys := x.phys.dropPlane (field w 23 20) site unit }
  | _ => x

/-- R552: a record that substitution uses. -/
def substitutes (r : List Byte) : Bool :=
  let w := get32 r 4
  0x0010 ≤ w % 65536 && w % 65536 ≤ 0x0013 && !bitAt w 24

/-- R552: the accepted records in increasing NUMBER. -/
def substitute (f : Fuses) (rs : List (List Byte)) : Substitution :=
  ((rs.filter substitutes).mergeSort fun a b => get32 a 0 ≤ get32 b 0).foldl (Substitution.take f.part)
    ⟨fusedPhysical f, f.badClusters⟩

/-! ## Self-tests (R551) -/

/-- A Ledger record of a unit that fails at a start; its number. -/
def State.unitRecord (s : State) (cls siteKind site unit : Nat) (payload : List Nat) : Nat × State :=
  s.record { cls := cls, severity := 1, siteKind := siteKind, site := site, unit := unit, injected := false, payload := payload }

/-- R551: a physical cluster in service fails its self-test, and is substituted (DEDUCED: R35 keeps it from being used). -/
def State.clusterFails (x : Substitution × State) (c : Nat × Nat) : Substitution × State :=
  match x.1.phys.clusters.find? fun o => o.cdie == c.1 && o.phys == c.2 && o.origin != 3 with
  | none => x
  | some o =>
    let r := x.2.unitRecord 0x0010 8 (16 * o.cdie + o.cluster) c.2 [0, 1]
    (x.1.cluster c.1 c.2 (BitVec.ofNat 32 r.1), r.2)

/-- R551: a lane fails training. -/
def State.laneFails (x : Substitution × State) (l : Nat × Nat × Nat) : Substitution × State :=
  if x.1.phys.lanes.contains l then x
  else
    let r := x.2.unitRecord 0x0012 5 l.1 l.2.2 [l.2.1 % 2]
    ({ x.1 with phys := x.1.phys.dropLane l.1 l.2.1 l.2.2 }, r.2)

/-- R550: a crossbar plane fails its self-test; there is one spare plane in C8 only (R34), so any other part falls short (R35). -/
def State.planeFails (x : Substitution × State) (a : Nat × Nat × Nat) : Substitution × State :=
  if x.1.phys.planes.contains a then x
  else
    let r := x.2.unitRecord 0x0013 a.1 a.2.1 a.2.2 [a.1 + 256 * a.2.1]
    ({ x.1 with phys := x.1.phys.dropPlane a.1 a.2.1 a.2.2 }, r.2)

/-! ## The fabric block (R461 to R463, R524) -/

def fabricOf (b : List Byte) : Fabric where
  rank := get32 b 0 % 4096
  fabricId := BitVec.ofNat 32 (get32 b 4)
  word8 := BitVec.ofNat 32 (get32 b 8)
  phyMode := BitVec.ofNat 16 (get16 b 0x0C)
  portEn := BitVec.ofNat 16 (get16 b 0x0E)
  d0minus := BitVec.ofNat 16 (get16 b 0x10)
  d0plus := BitVec.ofNat 16 (get16 b 0x12)
  d1minus := BitVec.ofNat 16 (get16 b 0x14)
  d1plus := BitVec.ofNat 16 (get16 b 0x16)
  d2minus := BitVec.ofNat 16 (get16 b 0x18)
  d2plus := BitVec.ofNat 16 (get16 b 0x1A)

/-- R463: the block is valid on a part. -/
def Fabric.valid (f : Fabric) (p : Part) : Bool :=
  let masks := [0, 1, 2].flatMap fun i => [f.mask i false, f.mask i true]
  f.rank < f.ranks
    && (List.range 16).all (fun k =>
        (masks.filter fun m => m.getLsbD k).length == bit (f.portEn.getLsbD k) && (!f.portEn.getLsbD k || k < 4 * p.x))
    && [0, 1, 2].all fun i =>
        ((f.mask i false == 0#16) == (f.coord i f.rank == 0)) && ((f.mask i true == 0#16) == (f.coord i f.rank + 1 == f.size i))

/-- R461: the block is in force, or the fallback with its record. -/
def State.applyFabric (s : State) (block : Option (List Byte)) : State :=
  let good := match block with
    | some b =>
      let f := fabricOf b
      if crc32 (b.take 28) == get32 b 0x1C && f.valid s.fuses.part then some f else none
    | none => none
  match good with
  | some f =>
    { s with ww := { s.ww with
      fabric := f
      ports := s.ww.ports.mapIdx fun i p => { p with state := if f.portEn.getLsbD i then .training else .disabled } } }
  | none =>
    ({ s with ww := { s.ww with fabric := Fabric.fallback } }).log
      { cls := 0x0065, severity := 1, siteKind := 7, site := 0, unit := 0xFFFF, injected := false, payload := [] }

/-! ## FIRMWARE_BRING_UP -/

/-- R546, R549, R100: the next record number, and the history records that firmware cannot use. -/
def State.takeHistory (s : State) (rs : List (List Byte)) : State :=
  let bad := s.fw.history.filter fun r => !historyPad r && !historyOk s.fuses.serial r
  let next := (rs.map fun r => get32 r 0).foldl max 0 + 1
  { s with
    ledger := { s.ledger with next := next, first := next }
    host := { s.host with historyBad := bump s.host.historyBad bad.length } }

/-- R382, R323, R464, R370: what is drawn at a start. -/
def State.draws (s : State) (r : StartReport) : State :=
  let f := s.fresh
  { f.2 with
    tr := { s.tr with leaves := [], ready := true, nearKey := r.nearKey, depKey := r.depKey }
    routing := { s.routing with startKey := r.flowKey, flowKey := r.flowKey }
    fw := { s.fw with startId := r.startNumber }
    faultSeq := f.1.toNat % 2 ^ 20 }

/-- R35, R46, R95, R508: phase 8. -/
def State.endStart (s : State) : State :=
  let n := s.phys.shortfall s.fuses.part
  let s := s.publish (if n == 0 then 3 else 4) s.firmwareEntries
  let s := if n == 0 then s.setStart .ready 0 else s.setStart .shortfall n
  State.correlate { s with
    fw := { s.fw with timeRuns := true }
    session := { s.session with orphanMs := 2000, orphanEvents := 0#32 } }

/-- R544: firmware can no longer run; cause as in R550. -/
def State.fatalStart (s : State) (cause : Nat) : State :=
  let r := s.record
    { cls := 0x0071, severity := 3, siteKind := 7, site := 0, unit := 0xFFFF, injected := false, payload := [cause] }
  r.2.setStart .fwFailed (r.1 % 65536)

/-- R95 phase 7, up to the fabric block. -/
def State.phase7 (s : State) (r : StartReport) : State :=
  let rs := s.fw.history.filter fun h => !historyPad h && historyOk s.fuses.serial h
  let s := (s.draws r).takeHistory rs
  let s := if s.link.rate < 5 || s.link.lanes < 16 then s.linkRecord else s
  let x := r.failedClusters.foldl State.clusterFails (substitute s.fuses rs, s)
  let x := r.failedPlanes.foldl State.planeFails (r.failedLanes.foldl State.laneFails x)
  -- R388: every burst is written, with contents the manual leaves open
  let s := (x.2.forgetSpace .near).forgetSpace .dep
  { s with phys := { x.1.phys with lanesNow := x.1.phys.lanes } }

/-- R95: phases 7 and 8. A fabric block read that fails is tried again (R524). -/
def execFirmwareBringUp (report : StartReport) (s : State) : Host.Outcome State Fault Refusal := s.after <|
  if s.fw.start != .fwStarting || s.ledger.next != 0 then .next s
  else
    let s := s.phase7 report
    match report.fatal with
    | some cause => .next (s.fatalStart cause)
    | none =>
      match report.fabricBlock with
      | none => .next { s with fw := { s.fw with fabricTries := 1 } }
      | some b => .next (s.applyFabric (some b)).endStart

/-- R524: firmware reads the fabric block again, twice at most. -/
def execFabricReadRetry (block : Option (List Byte)) (s : State) : Host.Outcome State Fault Refusal := s.after <|
  if s.fw.start != .fwStarting || s.fw.fabricTries == 0 then .next s
  else
    match block with
    | some b => .next (s.applyFabric (some b)).endStart
    | none =>
      if s.fw.fabricTries < 2 then .next { s with fw := { s.fw with fabricTries := s.fw.fabricTries + 1 } }
      else .next (s.applyFabric none).endStart

/-! ## STAGE_FIRMWARE (R122) -/

/-- A completion of carrel 0 for work that is in no queue. -/
def State.postDevice (s : State) (ticket tag : Word32) (op status : Nat) (lo hi : Word32) : State :=
  s.post 0 { seq := 0#32, ticket := ticket, opcode := op, queue := 0xFFFF, tag := tag, status := status, detail := 0, lo := lo, hi := hi }

/-- R122: reads and checks an image; LOCK.FW_REGION keeps it from being older than the running one. -/
def State.readStaged (s : State) (h : HostView) (sigOk : Bool) (list pages : Nat) : Except Nat Image :=
  let running := if s.bar0.lock.getLsbD 1 then (s.fw.running.elim 0 fun i => i.svn.toNat) else 0
  if !s.cfg.busMaster then .error stNoMaster
  else
    match hostPages h list pages with
    | none => .error stHostDmaError
    | some b => s.checkImage b pages (max s.fuses.svnMin.toNat running) sigOk

/-- R563: the first bad field. -/
def stageBad (pl : List Byte) : Option Nat :=
  firstBad [(0, get64 pl 0 % 8 != 0), (8, get32 pl 8 == 0 || 8192 < get32 pl 8)]

/-- R122, R563. -/
def stageBody (h : HostView) (sigOk : Bool) (pl : List Byte) (s : State) : Answer × State :=
  match stageBad pl with
  | some f => (ansField f, s)
  | none =>
    let t := s.newTicket 0
    let s := t.2
    let tag := s.tagOf 0
    (ansAccepted t.1,
      match s.readStaged h sigOk (get64 pl 0) (get32 pl 8) with
      | .error e => s.refuseImage.postDevice t.1 tag 0x0020 e 0#32 0#32
      | .ok i =>
        ({ s with fw := { s.fw with
            staged := some i
            activation := if s.fw.activation == Activation.none then .staged else s.fw.activation } }).postDevice t.1 tag 0x0020 stOk
          i.build i.svn)

/-- R108: with carrel 0's hold list full the staging does not start. -/
def execStageFirmware (host : HostView) (sigOk : Bool) (s : State) : Host.Outcome State Fault Refusal := s.after <|
  s.unlessHeld 0 0x0020 (fun pl => (stageBad pl).isNone && (s.readsHeld || s.carrelFull 0)) (takeRing 0 0x0020 (stageBody host sigOk) s)

/-! ## Activation (R123 to R126) -/

/-- R123: ACTIVATE_FIRMWARE. -/
def activateBody (pl : List Byte) (s : State) : Answer × State :=
  if s.fw.staged.isNone then (ans stBadState, s)
  else if s.fw.pendingAct.isSome then (ans stBusy, s)
  else
    let t := s.newTicket 0
    (ansAccepted t.1,
      { t.2 with fw := { t.2.fw with activation := .deferred, pendingAct := some ⟨s.tagOf 0, t.1, get32 pl 0⟩ } })

def execActivateFirmware (s : State) : Host.Outcome State Fault Refusal := s.after <| takeRing 0 0x0021 activateBody s

/-- R123, R124: the handover begins; while it lasts no ring is taken and no engine runs. R108: it does not start while carrel 0's hold list is
full. -/
def execHandoverBegin (s : State) : Host.Outcome State Fault Refusal := s.after <|
  if s.fw.activation != .deferred || s.fw.start != .ready || !s.power.declared.isEmpty || s.carrelFull 0 then .next s
  else .next { s with fw := { s.fw with activation := .handing, previous := s.fw.running } }

/-- The completion of an activation: milliseconds deferred, a free value (log 11), and FW_BUILD. -/
def State.endActivation (s : State) (status : Nat) (build : Word32) : State :=
  match s.fw.pendingAct with
  | none => s
  | some a =>
    let f := s.fresh
    ({ f.2 with fw := { f.2.fw with pendingAct := none } }).postDevice a.ticket a.tag 0x0021 status (f.1.setWidth 32) build

/-- R126, R534: the new image takes over; R124: work goes on. -/
def State.handOver (s : State) : State :=
  match s.fw.staged with
  | none => s
  | some i =>
    let s := { s with fw := { s.fw with
      running := some i
      staged := none
      previous := none
      ak := s.deriveAk i
      activations := bump s.fw.activations 1 } }
    let s := (s.publish 3 s.firmwareEntries).endActivation stOk i.build
    State.dmaRelease { s with fw := { s.fw with activation := Activation.none } }

def execHandoverComplete (s : State) : Host.Outcome State Fault Refusal := s.after <|
  if s.fw.activation != .handing then .next s else .next s.handOver

/-- R125: the previous image resumes, and work with it; the new one stays staged (DEDUCED, log 41). -/
def execHandoverTimeout (s : State) : Host.Outcome State Fault Refusal := s.after <|
  if s.fw.activation != .handing then .next s
  else
    let build := s.fw.staged.elim 0#32 fun i => i.build
    let s := { s with fw := { s.fw with activation := .staged, running := s.fw.previous, previous := none } }
    .next ((s.endActivation stActivationFailed build).log
      { cls := 0x0070, severity := 1, siteKind := 7, site := 0, unit := 0xFFFF, injected := false, payload := [build.toNat] }).dmaRelease

/-- R123: the deadline of a deferred activation passes. -/
def execDeferredTimeout (elapsedS : Nat) (s : State) : Host.Outcome State Fault Refusal := s.after <|
  match s.fw.pendingAct with
  | none => .next s
  | some a =>
    if s.fw.activation != .deferred || a.deadlineS == 0 || elapsedS < a.deadlineS then .next s
    else
      let build := s.fw.staged.elim 0#32 fun i => i.build
      let s := { s with fw := { s.fw with activation := .staged } }
      .next (s.endActivation stDeferredTimeout build)

end Sys2Proof.Machine
end

