-- ==== Sys2Proof/Machine/Session.lean ====
section
/-! DEFINITION. Sessions and carrels: ATTACH, DETACH, orphan timing, OPEN_CARREL, CLOSE_CARREL, SET_MIRROR, GET_VERSION (R112 to R121,
R560, R561), the end of a session (R116, R372, R425, R454), function-level reset (R88, R90) and fatal errors (R544). -/

namespace Sys2Proof.Machine

/-! ## What operations write (R116) -/

/-- Rows of bytes: a base, a pitch, how many, and the bytes of each. -/
def rowsOf (base pitch n bytes : Nat) : List (Nat × Nat) := (List.range n).map fun i => (base + i * pitch, bytes)

/-- The arrays that a matrix operation writes: OUT of class INPUT, or the binarised bits. -/
def matOutputs (d : List Byte) : List (Nat × Nat) :=
  let x := MatDesc.of d
  if x.cls == 0 then rowsOf x.block x.blockPitch x.m (4 * x.n)
  else if x.binOut == 0 then []
  else rowsOf x.binOut x.binPitch x.m (ceilDiv x.k 8)

def drainOutputs (d : List Byte) : List (Nat × Nat) :=
  let x := DrainDesc.of d
  let n := x.tiles * x.size.1
  rowsOf x.dstVa x.pitch n (ceilDiv (x.size.2 * fmtWidth x.dst) 8)
    ++ (if x.scaled && x.scaleMode != 0 then rowsOf x.scaleVa x.scalePitch n (x.size.2 / 32) else [])
    ++ (if x.rowstat == 0 then [] else [(x.statVa, 16 * n)])

def vecOutputs (d : List Byte) : List (Nat × Nat) :=
  let x := VecDesc.of d
  let n := if x.op == 0x21 then x.aux0 else x.outputs
  (if isMerge x.op || x.op == 0x33 then [(x.destSpan.1, x.destSpan.2 - x.destSpan.1)] else (x.d.pieces n 0 n).map x.d.pieceBytes)
    ++ (x.extraSpans.filter fun p => p.1 < p.2).map fun p => (p.1, p.2 - p.1)

def State.routeOutputs (s : State) (d : List Byte) : List (Nat × Nat) :=
  let x := RouteDesc.of d
  match s.layerRecord x.layer with
  | none => []
  | some b =>
    let r := LayerRec.of b
    let combine := (x.combine, 4 * x.tokens * r.k)
    if x.mode == 0 then
      [(r.dispatch, 4 * r.experts * r.rows), (r.dgate, 4 * r.experts * r.rows), (r.counts, 8 * r.experts), combine,
        (x.cgate, 4 * x.tokens * r.k)]
    else if x.mode == 1 then [combine]
    else []

/-- R116: the outputs of a REDUCE (R412, R426). -/
def State.reduceOutputs (s : State) (d : List Byte) : List (Nat × Nat) :=
  let x := ReduceDesc.of d
  if x.stats then
    (x.dst, 16 * x.index) :: (match s.group? x.group with
      | some g => if g.me == 0 then [(x.stage, g.size * x.index * 32)] else []
      | none => [])
  else
    match s.group? x.group with
    | none => []
    | some g =>
      if (g.layout.getD []).length ≤ x.index then []
      else
        let l := g.layer x.index
        [(l.err, 4 * l.elements), (l.sum, l.elements * l.resBytes), (l.cbuf, l.buckets * l.slot)]

/-- R116: outputs that become undefined. -/
def State.forgetAll (s : State) (l : List (Nat × Nat)) : State := l.foldl (fun s p => s.forgetSpan p.1 p.2) s

/-! ## Dispatched operations end (R116, R425, R454) -/

def discarded : Ending := ⟨stDiscarded, 0⟩

/-- R230: the state in which an operation that is being ended has tried to write its record. -/
def Closing.state (before : State) : Closing → State
  | .done _ _ s => s
  | .waits _ s => s
  | .held => before

def State.discardMatrix (s : State) (e : ClusterId) (op : MatrixOp) : State :=
  let s := s.forgetAll (if isDrain op.work.desc then drainOutputs op.work.desc else matOutputs op.work.desc)
  let f := s.freshes 4
  ((f.2.close (matrixWriter e) (.matrix e) (descAddr op.work.desc 0x88) discarded (matrixRecord discarded op.counts f.1)).state f.2).matDone e op
    discarded

def State.discardVector (s : State) (e : ClusterId) (op : VectorOp) : State :=
  let s := s.forgetAll (vecOutputs op.work.desc)
  let f := s.freshes 3
  ((f.2.close (vectorReader.on (.c, e.cdie)) (.vector e) (VecDesc.of op.work.desc).status discarded (vectorRecord discarded op.counts 0#64 f.1)).state f.2).vecDone
    e op discarded 0#64

def State.discardConv (s : State) (cdie : Nat) (op : ConvOp) : State :=
  let s := s.forgetAll (matOutputs op.work.desc)
  let f := s.freshes 4
  ((f.2.close (convWriter cdie) (.conventional cdie) (descAddr op.work.desc 0x88) discarded (matrixRecord discarded op.counts f.1)).state f.2).convDone
    cdie op discarded

/-- A routing descriptor ends DISCARDED. -/
def State.dropRouting (s : State) (xdie : Nat) (op : RoutingOp) : State :=
  let f := s.freshes 2
  ((f.2.close (routingReader xdie) (.routing xdie) (RouteDesc.of op.work.desc).status discarded
    (routingRecord op discarded f.1)).state f.2).routingDone xdie op discarded

def State.discardRouting (s : State) (xdie : Nat) (op : RoutingOp) : State :=
  (s.forgetAll (s.routeOutputs op.work.desc)).dropRouting xdie op

/-- R425; undefined: the outputs are left so (R116), and not at a DETACH. -/
def State.discardReduce (s : State) (xdie : Nat) (undefined_ : Bool) (op : ReduceOp) : State :=
  let s := if undefined_ then s.forgetAll (s.reduceOutputs op.work.desc) else s
  let f := s.freshes 3
  ((f.2.close (consortReader xdie) (.consort xdie) (ReduceDesc.of op.work.desc).status discarded
    (reduceRecord op discarded f.1)).state f.2).reduceDone op discarded

/-- R374, R376: a DMA item ends where it stands. -/
def State.discardDma (s : State) (xdie engine : Nat) : State :=
  match s.job? xdie engine with
  | none => s
  | some j =>
    let s := s.forgetSpan j.dst j.len
    let s := s.setJob xdie engine none
    let s := if s.progressHeld j then s else s.progress xdie engine j 3 0#32
    s.endItem j.queue j.uid stDiscarded 0 (BitVec.ofNat 32 j.bytesDone) (BitVec.ofNat 32 (j.bytesDone / 2 ^ 32))

/-- R347: a thread ends with its session; a record that cannot be written is left. -/
def State.discardThread (s : State) (t : ThreadId) : State :=
  match s.thread? t with
  | none => s
  | some th =>
    if th.state == .idle then s
    else
      let s := s.threadEnd t stDiscarded 0 0#64
      match s.thread? t with
      | none => s
      | some th => if th.state == .idle then s else s.threadGone t th stDiscarded 0 0#64

/-- R454: a running update stops at its granule boundary, and increments no DONE_WORD. -/
def State.discardUpdate (s : State) (op : UpdateOp) : State :=
  match s.schedule? op.layer with
  | none => s
  | some e =>
    let x := Schedule.of e.bytes
    let f := s.fresh
    let s := if op.recorded || s.recordHeld x.status 96 then s
      else (f.2.recordAt (updateReader (s.updateUnit x 0)) (.update op.layer) x.status (updateRecord op x.rule discarded f.1)).2
    s.postUpdate op x.notify discarded

/-- Every cluster and thread of the part. -/
def State.clusterIds (s : State) : List ClusterId := (List.range s.clusters.length).map clusterOf

def threadIds (e : ClusterId) : List ThreadId := (List.range 16).map fun i => ⟨e, i⟩

/-- An entry of a matrix engine's queue that is an operation of that engine: no vector instruction's read, no DEBUG_READ. -/
def Work.matrixEntry (w : Work) : Bool :=
  match w.issuer with
  | .debug _ => false
  | _ => descKind w.desc != 3

def State.discardCluster (s : State) (e : ClusterId) : State :=
  match s.cluster? e with
  | none => s
  | some c =>
    let vecs := c.vector.active.toList ++ c.vector.queue.map newVectorOp
    let mats := c.matrix.active.toList ++ c.matrix.preempted.toList
      ++ (c.matrix.queue.filter Work.matrixEntry).map newMatrixOp
    let s := mats.foldl (fun s op => s.discardMatrix e op) s
    let s := vecs.foldl (fun s op => s.discardVector e op) s
    let s := (threadIds e).foldl State.discardThread s
    (s.modMatrix e fun m => { m with queue := [], active := none, preempted := none, spilled := none, held := [] }).modVector e
      fun _ => ⟨[], none⟩

def State.discardXdie (s : State) (x : Nat) : State :=
  let s := match s.routers[x]? with
    | none => s
    | some r =>
      { (r.active.toList ++ (r.queue ++ r.hold).map newRoutingOp).foldl (fun s op => s.discardRouting x op) s with
        routers := s.routers.modify x fun _ => ⟨[], [], none⟩ }
  (List.range 4).foldl (fun s e => s.discardDma x e) s

/-- R425: every reduction of the part, queued or running. -/
def State.discardReduces (s : State) (undefined_ : Bool) : State :=
  (List.range s.consorts.length).foldl (fun s x =>
    match s.consort? x with
    | none => s
    | some c =>
      let s := (c.active.toList ++ c.running ++ c.queue.map newReduce).foldl (fun s op => s.discardReduce x undefined_ op) s
      s.modConsort x fun _ => ⟨[], none, []⟩) s

def State.discardConvs (s : State) : State :=
  (List.range s.conv.length).foldl (fun s d =>
    match s.conv[d]? with
    | none => s
    | some u => u.ops.foldl (fun s op => s.discardConv d op) s) s

/-- R372: every FAULT_ID is withdrawn; a peer's request is answered as one not resolved. -/
def State.withdrawFaults (s : State) : State :=
  let s := { s with faults := [], faultWait := [] }
  (s.ww.peerHold.filter fun p => p.suspended.reported).foldl (fun s p => s.abort (.peer p.index) discardEnd fun _ => true) s

/-- R116 step 1: every dispatched operation ends. -/
def State.discardDispatched (s : State) : State :=
  let s := (s.discardReduces true).discardConvs
  let s := s.clusterIds.foldl State.discardCluster s
  let s := (List.range s.fuses.part.x).foldl State.discardXdie s
  let s := (s.update.ops.filter fun op => op.started).foldl State.discardUpdate s
  { s with update := { s.update with ops := [] } }

/-! ## Queued work, completions, carrels (R116, R117, R560) -/

def Queue.started (q : Queue) : Queue := { q with items := q.items.filter fun it => !it.waits }

/-- R116 step 2, R117: queued work is discarded; how many items. -/
def State.dropQueued (s : State) : Nat × State :=
  let n := (s.queues.map fun q => (q.items.filter Item.waits).length).foldl (· + ·) 0
  let nums := s.queues.map fun q => q.num
  let s := { s with
    queues := s.queues.map Queue.started
    update := { s.update with ops := s.update.ops.filter fun op => op.started } }
  (n, nums.foldl State.postQueue s)

/-- R560: the completions of every carrel are discarded; how many. -/
def State.discardCompletions (s : State) : Nat × State :=
  ((s.carrels.map Carrel.heldCount).foldl (· + ·) 0, { s with carrels := s.carrels.map Carrel.discard })

/-- R561: a carrel is closed. -/
def Carrel.close (c : Carrel) : Carrel := { c with isOpen := false, mirror := 0#64 }

/-- A reload's completion has nowhere to go once its carrel is closed. -/
def Banked.orphaned (b : Banked) : Banked :=
  { b with reload := b.reload.map fun r => if r.carrel == some 0 then r else { r with carrel := none } }

/-- R116, R324: the routing state of a session's end. -/
def Routing.ended (r : Routing) : Routing := { Routing.reset with startKey := r.startKey, flowKey := r.startKey }

/-- R116 steps 3 to 5. What the groups have still to record of NaN (R420) is recorded first. -/
def State.endSessionState (s : State) : State :=
  let s := s.coll.groups.foldl State.nanFlush s
  { s with
    carrels := s.carrels.mapIdx fun k c => if k == 0 then c else c.close
    queues := []
    coll := { s.coll with groups := [], refused := [], portBursts := [], own := [], gathers := [] }
    update := ⟨[], [], []⟩
    routing := s.routing.ended
    policies := []
    tr := { s.tr with leaves := [] }
    injections := if s.bar0.lock.getLsbD 3 then s.injections else []
    tables := ⟨s.tables.antilog.orphaned, s.tables.function.orphaned, s.tables.programs.orphaned⟩ }

/-- R102: the header fields of no session. -/
def Session.detached (x : Session) : Session :=
  { x with state := .detached, detaching := none, id := 0#64, ageMs := 0, drvUadin := 0#32 }

/-! ## ATTACH (R113 to R116, R118) -/

/-- Bytes lo to hi - 1 read 0, without poison. -/
def Store.zero (m : Store) (lo hi : Nat) : Store :=
  { (m.heal fun b => lo ≤ b * 64 && b * 64 < hi) with
    cells := m.cells.filter fun c => c.1 < lo || hi ≤ c.1
    undef := m.undef.flatMap (Undef.minus lo hi) }

/-- R113, R388: SCRUB. -/
def State.scrubAll (s : State) : State :=
  let p := s.fuses.part
  (s.setStore .near (s.mem.near.zero 0 p.fwBase)).setStore .dep (s.mem.dep.zero 0 p.depBytes)

/-- R103: no completion-ring mirror. -/
def Carrel.unmirror (c : Carrel) : Carrel := { c with mirror := 0#64 }

/-- R116: the old session ends. -/
def State.replaceSession (s : State) : State :=
  let s := s.dropQueued.2.discardDispatched.withdrawFaults
  let s := s.discardCompletions.2
  ({ s with carrels := s.carrels.map Carrel.unmirror }).endSessionState

/-- R114: the outcome: 0 NEW, 1 RESUMED, 2 REPLACED; none: BUSY. -/
def Session.outcome (x : Session) (id : Word64) (force : Bool) : Option Nat :=
  match x.state with
  | .detached => some 0
  | .orphaned => some (if id == x.id then 1 else 2)
  | .attached => if id == x.id then some 1 else if force then some 2 else none

/-- R119: ORPHAN_MS. -/
def orphanMsOk (ms : Nat) : Bool := ms == 0 || (200 ≤ ms && ms ≤ 60000)

/-- R113: QUEUED_OPS. -/
def State.queuedOps (s : State) : Nat := (s.queues.map fun q => (q.items.filter Item.waits).length).foldl (· + ·) 0

/-- R113: the response. -/
def State.attachAnswer (s : State) (outcome drv build : Nat) : Answer :=
  let fw := s.fw.running.elim 0 fun i => i.uadin.toNat
  ansOk ([fw, s.fw.running.elim 0 fun i => i.build.toNat, drv, build, s.fuses.romVersion.toNat, outcome + 4 * bit (fw == drv),
    (s.carrels.map Carrel.heldCount).foldl (· + ·) 0, s.queuedOps, s.session.orphanMs, s.session.orphanEvents.toNat].flatMap (leBytes 4))

/-- R113 to R116, R118. -/
def attachBody (pl : List Byte) (s : State) : Answer × State :=
  let id := BitVec.ofNat 64 (get64 pl 0)
  let drv := get32 pl 8
  let ms := get32 pl 0x10
  let flags := get32 pl 0x14
  if id == 0#64 then (ansField 0, s)
  else if ms != 0xFFFFFFFF && !orphanMsOk ms then (ansField 0x10, s)
  else
    match s.session.outcome id (bitAt flags 0) with
    | none => (ans stBusy, s)
    | some o =>
      let s := if o == 2 then s.replaceSession else s
      let s := if o != 1 && bitAt flags 1 then s.scrubAll else s
      let s := { s with session := { s.session with
        state := .attached
        id := id
        ageMs := 0
        drvUadin := BitVec.ofNat 32 drv
        orphanMs := if ms == 0xFFFFFFFF then s.session.orphanMs else ms } }
      let s := s.masteringResumed
      (s.attachAnswer o drv (get32 pl 0x0C), s)

def execAttach (s : State) : Host.Outcome State Fault Refusal := s.after <| takeRing 0 0x0010 attachBody s

/-! ## DETACH (R117) -/

/-- Every requester that can be suspended. -/
def State.requesters (s : State) : List Requester :=
  let es := s.clusterIds
  es.flatMap (fun e => (threadIds e).map Requester.thread ++ [.matrix e, .vector e])
    ++ (List.range s.conv.length).map Requester.conventional ++ (List.range s.routers.length).map Requester.routing
    ++ (List.range (4 * s.routers.length)).map (fun i => Requester.dma (i / 4) (i % 4))
    ++ (s.update.ops.map fun op => op.layer).eraseDups.map Requester.update

/-- R117, R372: work suspended on a fault ends; what a second walk resolves goes on (R368). -/
def State.withdrawWork (s : State) (r : Requester) : State :=
  (s.suspensions r).foldl (fun s x =>
    if !x.reported && (s.walkAgain x).isNone then s.resume r fun y => y == x else s.abort r discardEnd fun y => y == x) s

/-- Dispatched work that has not ended. -/
def Cluster.working (c : Cluster) : Bool :=
  !c.matrix.queue.isEmpty || c.matrix.active.isSome || c.matrix.preempted.isSome || !c.vector.queue.isEmpty
    || c.vector.active.isSome || c.threads.any fun t => t.state != .idle

/-- R329: a ROUTE held for a batch that has not been routed. -/
def State.heldRoute (s : State) (w : Work) : Bool := s.mustWait (RouteDesc.of w.desc)

/-- R117: dispatched work that can run to its end. A ROUTE held for a batch that nothing else running can route cannot. -/
def State.working (s : State) : Bool :=
  let held := (s.routers.flatMap fun r => r.hold.filter s.heldRoute).map fun w => w.uid
  s.queues.any (fun q => q.items.any fun it => it.state == .started && !held.contains it.uid) || s.clusters.any Cluster.working
    || s.conv.any (fun u => !u.ops.isEmpty) || s.dma.any Option.isSome
    || s.routers.any (fun r => !r.queue.isEmpty || r.active.isSome || r.hold.any fun w => !s.heldRoute w)
    || s.update.ops.any fun op => op.started

/-- R329, R117: held ROUTEs end with the session (log 42). -/
def State.dropHeld (s : State) : State :=
  (List.range s.routers.length).foldl (fun s x =>
    ((s.router? x).elim [] fun r => r.hold).foldl (fun s w => s.dropRouting x (newRoutingOp w))
      { s with routers := s.routers.modify x fun r => { r with hold := [] } }) s

/-- R117: what DETACH does at once; the items it has discarded. -/
def State.beginDetach (s : State) : Nat × State :=
  let q := s.dropQueued
  let s := (q.2.discardReduces false).withdrawFaults
  (q.1, s.requesters.foldl State.withdrawWork s)

/-- R117: the end of a DETACH, once dispatched work has ended: the answer's DISCARDED. -/
def State.finishDetach (s : State) (before : Nat) : Nat × State :=
  let q := s.dropHeld.dropQueued
  let d := q.2.discardCompletions
  (before + q.1 + d.1, { d.2.endSessionState with session := d.2.session.detached })

/-- R117: the answer is written at once where nothing is left to run. -/
def detachBody (s : State) : Option Answer × State :=
  let b := s.beginDetach
  if b.2.working then (none, { b.2 with session := { b.2.session with detaching := some b.1 } })
  else
    let f := b.2.finishDetach b.1
    (some (ansOk (leBytes 4 f.1)), f.2)

/-- R117: a DETACH is taken; or one that waits is answered, once the last dispatched operation has ended (log 42). -/
def execDetach (s : State) : Host.Outcome State Fault Refusal := s.after <|
  match s.session.detaching with
  | none => takeRingLater 0 0x0011 (fun _ s => detachBody s) s
  | some n =>
    if s.working then .next s
    else
      match s.carrel? 0 with
      | none => .next s
      | some c =>
        let f := s.finishDetach n
        .next (f.2.respond 0 (c.rspSeq + 1#32) 0x0011 c.tag (ansOk (leBytes 4 f.1)))

/-! ## Orphan timing (R119 to R121) -/

def setOrphanBody (pl : List Byte) (s : State) : Answer × State :=
  let ms := get32 pl 0
  if orphanMsOk ms then (ansOk (leBytes 4 ms), { s with session := { s.session with orphanMs := ms } }) else (ansField 0, s)

def execSetOrphanTimeout (s : State) : Host.Outcome State Fault Refusal := s.after <| takeRing 0 0x0012 setOrphanBody s

/-- R120: a test of the heartbeat's age; R126: none is made during a handover. -/
def execOrphanTimeout (ageMs : Nat) (s : State) : Host.Outcome State Fault Refusal := s.after <|
  if s.session.state == .detached || !s.fwRuns || s.fw.activation == .handing then .next s
  else
    let s := { s with session := { s.session with ageMs := ageMs } }
    if s.session.state == .attached && s.session.orphanMs != 0 && s.session.orphanMs ≤ ageMs then
      .next { s with
        session := { s.session with state := .orphaned, orphanEvents := bump s.session.orphanEvents 1 }
        host := { s.host with orphanEvents := bump s.host.orphanEvents 1 } }
    else .next s

/-! ## Carrels (R561) -/

def openCarrelBody (pl : List Byte) (s : State) : Answer × State :=
  let k := get8 pl 0
  match s.carrel? k with
  | none => (ansField 0, s)
  | some c =>
    if k == 0 then (ansField 0, s)
    else if c.isOpen then (ans stBadState, s)
    else
      (ansOk [], s.modCarrel k fun c =>
        { c with isOpen := true, reqSeq := 0#32, rspSeq := 0#32, cplTail := 0#32, cplHead := 0#32, hold := [], mirror := 0#64,
                 mirrorDue := [], nextTicket := 1#32 })

def execOpenCarrel (s : State) : Host.Outcome State Fault Refusal := s.after <| takeRing 0 0x0013 openCarrelBody s

/-- R561: what keeps a carrel open: a queue or group of it, work accepted in it that has not posted its completion. -/
def State.carrelBusy (s : State) (k : Nat) : Bool :=
  s.queues.any (fun q => q.carrel == k || q.items.any fun it => it.via == k) || s.coll.groups.any (fun g => g.carrel == k)
    || [s.tables.antilog, s.tables.function, s.tables.programs].any fun b => b.reload.any fun r => r.carrel == some k

def closeCarrelBody (pl : List Byte) (s : State) : Answer × State :=
  let k := get8 pl 0
  match s.carrel? k with
  | none => (ansField 0, s)
  | some c =>
    if k == 0 then (ansField 0, s)
    else if !c.isOpen then (ans stBadState, s)
    else if s.carrelBusy k then (ans stBusy, s)
    else (ansOk (leBytes 4 c.heldCount), s.modCarrel k fun c => c.discard.close)

def execCloseCarrel (s : State) : Host.Outcome State Fault Refusal := s.after <| takeRing 0 0x0014 closeCarrelBody s

/-- R112: GET_VERSION. -/
def getVersionBody (_ : List Byte) (s : State) : Answer × State :=
  let i := s.fw.running.getD noImage
  (ansOk (leBytes 4 i.uadin.toNat ++ leBytes 4 i.build.toNat ++ leBytes 4 s.fuses.romVersion.toNat ++ leBytes 4 i.svn.toNat), s)

def execGetVersion (s : State) : Host.Outcome State Fault Refusal := s.after <| takeRing 0 0x0015 getVersionBody s

/-- R112: SET_MIRROR. -/
def setMirrorBody (carrel : Nat) (pl : List Byte) (s : State) : Answer × State :=
  let m := get64 pl 0
  if m % 4096 != 0 then (ansField 0, s)
  else (ansOk [], s.modCarrel carrel fun c =>
    { c with mirror := BitVec.ofNat 64 m, mirrorDue := if m == 0 then [] else c.mirrorDue })

def execSetMirror (carrel : Nat) (s : State) : Host.Outcome State Fault Refusal := s.after <| takeRing carrel 0x0016 (setMirrorBody carrel) s

/-! ## Function-level reset (R88, R90, R224, R264) -/

/-- R88, R90: operations stop, and what they hold is gone; accumulators are undefined (R224). -/
def Cluster.stopped (c : Cluster) : Cluster :=
  { c with
    threads := c.threads.map fun t =>
      { t with state := .idle, wait := .none, suspended := none, issued := [], summaries := [], writes := [], ending := none }
    matrix := MatrixEngine.reset
    vector := ⟨[], none⟩ }

/-- R264: bytes lo to hi - 1 of local memory hold undefined contents, none of them poisoned. -/
def Store.forgetLocal (m : Store) (lo hi tag : Nat) : Store :=
  (m.forget lo hi tag).heal fun w => lo ≤ w * 8 && w * 8 < hi

/-- R264: folios and operand caches. -/
def State.forgetFolios (s : State) : State :=
  let n := s.clusters.length
  let st := (List.range n).foldl (fun st i =>
    st.forgetLocal (i * 2 ^ 25 + 0x1000000) (i * 2 ^ 25 + (if i % 16 == 0 then 0x1100000 else 0x1040000)) s.freeCtr) s.mem.loc
  { s.setStore .loc st with freeCtr := s.freeCtr + 1 }

/-- Every operation in flight stops where it is. -/
def State.stopAll (s : State) : State :=
  { s with
    clusters := s.clusters.map Cluster.stopped
    conv := s.conv.map fun _ => ⟨[]⟩
    routers := s.routers.map fun _ => ⟨[], [], none⟩
    consorts := s.consorts.map fun _ => ⟨[], none, []⟩
    dma := s.dma.map fun _ => none
    hostReads := []
    faults := []
    faultWait := [] }

/-- R90: a carrel after a function-level reset. -/
def resetCarrels : List Carrel := carrelsReset

/-- R88, R68, R90: configuration space is reset, apart from what the PCIe Base Specification makes sticky: the AER status and the ECRC
enables (PRESUMED, log 44). -/
def State.flrPort (s : State) : State :=
  { s with
    cfg :=
      { ConfigSpace.reset with
        aer := s.cfg.aer
        aerFatal := s.cfg.aerFatal
        aerCorrected := s.cfg.aerCorrected
        ecrcGenerate := s.cfg.ecrcGenerate
        ecrcCheck := s.cfg.ecrcCheck }
    bar0 := { s.bar0 with bar2Lo := 0#32, bar2HiStaged := 0#25, bar2HiActive := 0#25, intMap := defaultIntMap, msix := resetMsix,
                          pba := 0#256, resetCause := 4#3 } }

/-- R90: the state after firmware load and before ATTACH, memory, keys, LOCK bits, policy and fabric kept. -/
def State.flrDevice (s : State) : State :=
  let s := s.withdrawFaults.stopAll.forgetFolios.endSessionState
  { s with
    carrels := resetCarrels
    session := s.session.detached
    tables := ⟨Banked.reset, Banked.reset, Banked.reset⟩
    fw := { s.fw with
      pendingAct := none
      activation := if s.fw.staged.isSome then .staged else Activation.none } }

/-- R90: a handover that has begun completes first. While firmware has not started there is no session to discard. -/
def execFunctionLevelReset (s : State) : Host.Outcome State Fault Refusal := s.after <|
  if !s.linkUp then .next s
  else
    let s := s.awake
    let s := if s.fw.activation == .handing then s.handOver else s
    .next s.flrDevice.flrPort

/-! ## Fatal errors (R544) -/

/-- R544: operations in flight stop, and their outputs are undefined. -/
def State.forgetInFlight (s : State) : State :=
  let s := s.clusters.foldl (fun s c =>
    let s := ((c.matrix.active.toList ++ c.matrix.preempted.toList).map fun op => op.work.desc).foldl (fun s d =>
      s.forgetAll (if isDrain d then drainOutputs d else matOutputs d)) s
    c.vector.active.toList.foldl (fun s op => s.forgetAll (vecOutputs op.work.desc)) s) s
  let s := (s.conv.flatMap fun u => u.ops).foldl (fun s op => s.forgetAll (matOutputs op.work.desc)) s
  let s := (s.routers.flatMap fun r => r.active.toList).foldl (fun s op => s.forgetAll (s.routeOutputs op.work.desc)) s
  let s := (s.consorts.flatMap fun c => c.active.toList ++ c.running).foldl (fun s op => s.forgetAll (s.reduceOutputs op.work.desc)) s
  (s.dma.filterMap id).foldl (fun s j => s.forgetSpan j.dst j.len) s

/-- R544: firmware can no longer run. -/
def State.fatal (s : State) (cause : Nat) : State := (s.forgetInFlight.fatalStart cause).stopAll

end Sys2Proof.Machine
end

