-- ==== Sys2Proof/Machine/Errors.lean ====
section
/-! DEFINITION. Errors as they are found: the tiers' bursts (R387 to R392), whose errors may stop firmware (R544), and the part's own SRAM
(R545, R423, R337). Errors of use come about through the commands SCRUB and SRAM_SCRUB alone (log 61). -/

namespace Sys2Proof.Machine

/-! ## The decoder of a burst (R387) -/

/-- R387: the symbol of a wrong bit: its lane, and the transfer it crossed in. -/
def symbolOf (b : Nat × Nat) : Nat := 4 * b.1 + b.2 / 8

/-- What the decoder makes of a burst; missed: it passes a burst with an error as clean, or corrects it to other data. -/
inductive Verdict
  | clean
  | corrected
  | uncorrectable
  | missed (counted : Bool)
  deriving DecidableEq, Repr

/-- R387: by the wrong bits. Up to three symbols, or one lane, are corrected; up to four symbols are otherwise detected. Of more, the
model leaves open which are not (log 61). -/
def verdict (wrong : List (Nat × Nat)) : Verdict :=
  let symbols := (wrong.map symbolOf).eraseDups.length
  let lanes := (wrong.map fun b => b.1).eraseDups.length
  if symbols == 0 then .clean
  else if symbols ≤ 3 || lanes == 1 then .corrected
  else if symbols == 4 then .uncorrectable
  else
    match Config.eccMiss wrong with
    | 1 => .missed false
    | 2 => .missed true
    | _ => .uncorrectable

/-! ## SCRUB (R391, R392) -/

/-- R380, R391: how many bursts a channel of a tier holds. -/
def Part.channelBursts (p : Part) (tier : Space) : Nat :=
  (match tier with | .near => p.nearBytes | .dep => p.depBytes | .loc => 0) / 512 / p.stacksOf tier

/-- The number kept for a key, 0 where none is kept. -/
def keyed (l : List (Nat × Nat)) (k : Nat) : Nat := ((l.find? fun x => x.1 == k).elim 0 fun x => x.2)

/-- The list with one number for a key. -/
def setKeyed (l : List (Nat × Nat)) (k v : Nat) : List (Nat × Nat) := (l.filter fun x => x.1 != k) ++ [(k, v)]

def Stack.noteScrub (channel next : Nat) (x : Stack) : Stack :=
  { x with scrubAddr := setKeyed x.scrubAddr channel next }

def Stack.noteCe (channel n : Nat) (x : Stack) : Stack := { x with ceByChannel := setKeyed x.ceByChannel channel n }

def Stack.noteReported (channel : Nat) (x : Stack) : Stack := { x with reported := x.reported ++ [channel] }

def StackCounters.oneCe (c : StackCounters) : StackCounters := { c with ce := bump c.ce 1 }

def StackCounters.oneScrub (c : StackCounters) : StackCounters := { c with scrubs := bump c.scrubs 1 }

/-- R389, R392: a corrected error of a channel. Whether more than 4,096 of them fell within 3,600 s is a free value (log 11). -/
def State.noteCe (s : State) (tier : Space) (stack channel o : Nat) : State :=
  match s.stack? tier stack with
  | none => s
  | some x =>
    let n := keyed x.ceByChannel channel + 1
    let s := s.modStack tier stack fun x => (x.count StackCounters.oneCe).noteCe channel n
    let f := s.fresh
    if 4096 < n && f.1.getLsbD 0 && !x.reported.contains channel then
      (f.2.log (f.2.channelRecord tier stack channel 0 n o)).modStack tier stack (Stack.noteReported channel)
    else f.2

/-- R544: an uncorrectable error at a near-tier offset stops firmware when the burst holds what firmware runs on (log 9). -/
def State.fatalAt (s : State) (tier : Space) (o : Nat) : State :=
  let cause := Config.firmwareHolds (o / 64)
  if tier == .near && s.fuses.part.fwBase ≤ o && cause < 3 then s.fatal cause else s

/-- A scrub, for the Ledger. -/
def scrubReader : Reader := ⟨14, none, none⟩

/-- The burst at a tier offset holds other data than was written. -/
def State.garble (s : State) (tier : Space) (o : Nat) : State :=
  { s.setStore tier ((s.mem.store tier).forget (o / 64 * 64) (o / 64 * 64 + 64) s.freeCtr) with freeCtr := s.freeCtr + 1 }

/-- R391, R389, R553: a scrub read of the burst at a tier offset, some of whose bits are wrong. -/
def State.scrubBurst (s : State) (tier : Space) (stack channel o : Nat) (wrong : List (Nat × Nat)) : State :=
  let s := s.modStack tier stack fun x => x.count StackCounters.oneScrub
  let i := s.injectEvent (if tier == .dep then 3 else 2) stack
  let st := i.2.mem.store tier
  if i.1 == 2 then (((i.2.countInjected tier o).uncorrectable scrubReader tier o true).2).fatalAt tier o
  else if st.poison.contains (o / 64) then ((i.2.uncorrectable scrubReader tier o (st.injectedAt (o / 64))).2).fatalAt tier o
  else
    match verdict wrong with
    | .uncorrectable => ((i.2.uncorrectable scrubReader tier o false).2).fatalAt tier o
    | .corrected => i.2.noteCe tier stack channel o
    | .missed counted => (if counted then i.2.noteCe tier stack channel o else i.2).garble tier o
    | .clean =>
      if i.1 == 1 then (i.2.countInjected tier o).modStack tier stack fun x => x.count StackCounters.oneCe else i.2

/-- R391: a controller scrubs the next burst of a channel, in increasing channel address. -/
def execScrub (tier : Space) (stack channel : Nat) (wrong : List (Nat × Nat)) (s : State) : Host.Outcome State Fault Refusal := s.after <|
  match s.stack? tier stack with
  | none => .next s
  | some x =>
    let p := s.fuses.part
    if !s.fwRuns || 8 ≤ channel then .next s
    else
      let a := keyed x.scrubAddr channel
      let o := unshelve (p.stacksOf tier) (s.tr.key tier) stack channel (64 * a)
      let next := if p.channelBursts tier ≤ a + 1 then 0 else a + 1
      .next ((s.modStack tier stack (Stack.noteScrub channel next)).scrubBurst tier stack channel o wrong)

/-! ## SRAM_SCRUB (R545) -/

def DiePower.oneCe (d : DiePower) : DiePower := { d with sramCe := bump d.sramCe 1 }
def DiePower.oneUe (d : DiePower) : DiePower := { d with sramUe := bump d.sramUe 1 }
def DiePower.oneParity (d : DiePower) : DiePower := { d with parity := bump d.parity 1 }
def DiePower.oneRefetch (d : DiePower) : DiePower := { d with tlbRefetch := bump d.tlbRefetch 1 }

/-- The cluster a requester stands in. -/
def clusterOfRequester (r : Requester) : Option ClusterId :=
  match r with
  | .thread t => some t.at_
  | .matrix e => some e
  | .vector e => some e
  | _ => none

/-- R547: SITE_KIND and SITE of a requester: its cluster, else its die; that of an update or a peer is the package (log 61). -/
def siteOf (r : Requester) : Nat × Nat :=
  match clusterOfRequester r, dieOf r with
  | some e, _ => (8, e.index)
  | none, some (.c, d) => (0, d)
  | none, some (.x, d) => (1, d)
  | none, some (.d, d) => (2, d)
  | none, none => (7, 0)

/-- R545, R550: the SRAM_UE record of a structure. Where in it the error lies, the spec does not number: a free value (log 61). -/
def State.sramRecord (s : State) (r : Requester) (structure_ : Nat) : Nat × State :=
  let site := siteOf r
  let f := s.fresh
  let place := f.1.toNat % 2 ^ 32
  let a := f.2.record { cls := 0x0021, severity := 2, siteKind := site.1, site := site.2, unit := 0xFFFF, injected := false,
                        payload := [structure_, place] }
  match clusterOfRequester r with
  | none => a
  | some e => if structure_ == 4 then a else (a.1, a.2.noteClusterUe e (2 ^ 40 + place))

/-- Counts an error on a requester's die. -/
def State.countOn (s : State) (r : Requester) (f : DiePower → DiePower) : State := (dieOf r).elim s fun d => s.modDie d.1 d.2 f

/-- R545: a requester has work that an error in its structures ends. -/
def State.busy (s : State) (r : Requester) : Bool :=
  match r with
  | .thread t => (s.thread? t).elim false fun th => th.state != .idle && th.ending.isNone
  | .matrix e => ((s.cluster? e).bind fun c => c.matrix.active).elim false fun op => op.ended.isNone
  | .vector e => ((s.cluster? e).bind fun c => c.vector.active).elim false fun op => op.ended.isNone
  | .conventional d => ((s.conv[d]?).bind fun u => u.ops.head?).elim false fun op => op.ended.isNone
  | .routing x => ((s.router? x).bind fun u => u.active).elim false fun op => op.ended.isNone
  | .dma x e => (s.job? x e).elim false fun j => j.ended.isNone
  | .consort x => ((s.consort? x).bind fun c => c.active).elim false fun op => op.ended.isNone
  | .update l => (s.update? l).elim false fun op => op.started && op.ended.isNone
  | _ => false

/-- R545: the work of a requester ends where it stands. -/
def State.failWork (s : State) (r : Requester) (e : Ending) : State :=
  match r with
  | .thread t => s.threadEnd t e.status e.detail 0#64
  | .matrix c =>
    ((s.cluster? c).bind fun c => c.matrix.active).elim s fun op =>
      s.setActive c (some (s.monitor { op with suspended := none, ended := some e } true))
  | .vector c =>
    ((s.cluster? c).bind fun c => c.vector.active).elim s fun op =>
      (s.leaveMatrixQueue c op.work).setVector c (some { op with suspended := none, ended := some e })
  | .conventional d =>
    ((s.conv[d]?).bind fun u => u.ops.head?).elim s fun op => s.setConv d { op with suspended := none, ended := some e }
  | .routing x =>
    ((s.router? x).bind fun u => u.active).elim s fun op => s.setRouting x (some { op with suspended := none, ended := some e })
  | .dma x n => s.dmaStop x n e.status e.detail
  | .consort x =>
    ((s.consort? x).bind fun c => c.active).elim s fun op =>
      if op.stats then s.closeReduce x { op with suspended := none, ended := some e } e
      else (s.group? op.group).elim s fun g => s.reduceSent x ({ op with begun := true }.abortRest g e)
  | .update l => s.modUpdate l fun op => op.finish e
  | _ => s

/-- R545, R389: an uncorrectable error in a structure of a requester: recorded, and its work ends with DEVICE_ERROR. -/
def State.structureError (s : State) (r : Requester) (structure_ : Nat) (count : DiePower → DiePower) : State :=
  let a := (s.countOn r count).sramRecord r structure_
  a.2.failWork r ⟨stDeviceError, a.1 % 65536⟩

/-- R545: a word of a cluster's local memory; one already poisoned is found uncorrectable again. -/
def State.scrubWord (s : State) (e : ClusterId) (offset bits : Nat) : State :=
  if (s.cluster? e).isNone || !backed e.cluster offset then s
  else
    let o := e.index * 2 ^ 25 + offset / 8 * 8
    if 2 ≤ bits || s.mem.loc.poison.contains (o / 8) then (s.uncorrectable scrubReader .loc o (s.mem.loc.injectedAt (o / 8))).2
    else if bits == 1 then s.modDie .c e.cdie DiePower.oneCe
    else s

/-- R545: parity found wrong in an accumulator word: the operation ends, and its tile is undefined, as after a reset (R224). -/
def State.accumulatorError (s : State) (e : ClusterId) : State :=
  match (s.cluster? e).bind fun c => c.matrix.active with
  | none => s
  | some op =>
    let gs := op.work.footprint
    (s.structureError (.matrix e) 2 DiePower.oneParity).modMatrix e fun m => { m with acc := m.acc.filter fun p => !inRegions gs p }

/-- R337, R545: a flow-table entry holds an error from now on; it is reported when a descriptor meets it. -/
def State.flowCorrupt (s : State) (index kind : Nat) : State :=
  { s with routing := { s.routing with
      table := updIf (fun f => f.index == index) (fun f => { f with corrupt := max f.corrupt kind }) s.routing.table } }

/-- R337: likewise a spill-list entry in use. -/
def State.spillCorrupt (s : State) (index : Nat) (key : Bool) : State :=
  let was := s.routing.spillBad.any fun b => b.1 == index && b.2
  { s with routing := { s.routing with spillBad := (s.routing.spillBad.filter fun b => b.1 != index) ++ [(index, key || was)] } }

/-- R389, R423: bytes of the device's memory are poisoned. -/
def State.poisonSpan (s : State) (va n : Nat) : State :=
  match s.translateSpan .device .write va n with
  | .error _ => s
  | .ok ts =>
    ts.foldl (fun s p =>
      match p.1 with
      | .mem sp o =>
        let us := (List.range ((o + p.2 - 1) / sp.unit + 1 - o / sp.unit)).map fun i => o / sp.unit + i
        s.setStore sp { s.mem.store sp with poison := us.foldl (fun l u => insertNat u l) (s.mem.store sp).poison }
      | _ => s) s

/-- R423: an uncorrectable error in a staging slot or a burst in progress: its SUM bytes are poisoned, the bucket ends as ABORTED. -/
def State.slotError (s : State) (p : PortBurst) : State :=
  match (s.group? p.group).bind fun g => (g.find p.bucket).map fun x => (g, x.2) with
  | none => s
  | some (g, l, m) =>
    let r := Requester.port p.die p.unit
    let s := ((s.countOn r DiePower.oneUe).sramRecord r 5).2
    let s := s.poisonSpan (l.burstVa m p.burst) (min 16 (l.elementsIn m - 16 * p.burst) * l.resBytes)
    ((s.setPortBurst p.abort).settleBucket g p.bucket).collect

/-- R545: a SEC-DED structure: one wrong bit is corrected and counted; more are not. -/
def State.secded (s : State) (die : Option (DieKind × Nat)) (bits : Nat) (bad : State → State) : State :=
  if bits == 0 then s
  else if bits == 1 then die.elim s fun d => s.modDie d.1 d.2 DiePower.oneCe
  else bad s

/-- R545: an error of so many bits is found in SRAM. A parity error is one of any number of bits. -/
def State.sramError (place : SramPlace) (inKey : Bool) (bits : Nat) (s : State) : State :=
  match place with
  | .word e offset => s.scrubWord e offset bits
  | .accumulator e => if bits == 0 || !s.busy (.matrix e) then s else s.accumulatorError e
  | .entry r => if bits == 0 || !s.busy r then s else s.structureError r 3 DiePower.oneParity
  | .table r => if !s.busy r then s else s.secded (dieOf r) bits fun s => s.structureError r 4 DiePower.oneUe
  | .flow i =>
    if !s.routing.table.any fun f => f.index == i then s
    else s.secded (some (.x, shardOf s.fuses.part i)) bits fun s => s.flowCorrupt i (if inKey then 2 else 1)
  | .spill i =>
    if !s.routing.spillUsed.contains i then s else s.secded (some (.x, 0)) bits fun s => s.spillCorrupt i inKey
  | .translation k d => if bits == 0 then s else s.modDie k d DiePower.oneRefetch
  | .slot d u g b n =>
    match s.coll.portBursts.find? fun p => p.die == d && p.unit == u && p.group == g && p.bucket == b && p.burst == n with
    | none => s
    | some p => s.secded (dieOf (.port d u)) bits fun s => s.slotError p

def execSramScrub (place : SramPlace) (inKey : Bool) (bits : Nat) (s : State) : Host.Outcome State Fault Refusal := s.after <|
  .next (if s.fwRuns then s.sramError place inKey bits else s)

end Sys2Proof.Machine
end

