-- ==== Sys2Proof/Machine/Reads.lean ====
section
/-! DEFINITION. What the host reads of BAR0 (R44, R69 to R71, R84, R85, R101, R102, R109, R110) and of the configuration header (R67), and bad
accesses (R70). The table of commands has no row for any other read, since one changes nothing: these functions say what it returns. -/

namespace Sys2Proof.Machine

/-- R102, R121: CARREL_STATE, or START_STATUS in carrel 0. -/
def State.carrelState (s : State) (k : Nat) (c : Carrel) : Nat :=
  if k == 0 then s.fw.start.code else if !c.isOpen then 0 else if s.session.state == .orphaned then 2 else 1

def SessionState.code : SessionState → Nat
  | .detached => 0
  | .attached => 1
  | .orphaned => 2

def Activation.code : Activation → Nat
  | .none => 0
  | .staged => 1
  | .deferred => 2
  | .handing => 3

/-- R102: the header words of a carrel; those of the session stand in carrel 0. -/
def State.carrelHeader (s : State) (k : Nat) (c : Carrel) : List Byte :=
  let x := s.session
  leBytes 2 (s.carrelState k c) ++ leBytes 2 (if k == 0 then s.fw.detail.toNat else 0)
    ++ leBytes 4 c.reqSeq.toNat ++ leBytes 4 c.rspSeq.toNat ++ leBytes 4 c.cplTail.toNat ++ leBytes 4 c.cplHead.toNat
    ++ leBytes 4 c.hold.length
    ++ (if k == 0 then
        leBytes 4 c.heartbeat.toNat ++ leBytes 4 (x.state.code + 4 * s.fw.activation.code) ++ leBytes 4 x.orphanMs
          ++ leBytes 4 (if x.state == .detached then 0 else x.ageMs)
      else zeros 16)
    ++ leBytes 8 c.mirror.toNat ++ zeros 16

/-- R110: the response area. -/
def Response.bytes (r : Response) : List Byte :=
  padTo 0x400 (leBytes 2 r.opcode ++ leBytes 2 r.payload.length ++ leBytes 4 r.tag.toNat ++ leBytes 2 r.status ++ leBytes 2 r.detail
    ++ leBytes 4 r.ticket.toNat ++ r.payload)

/-- R107, R109: the completion ring. -/
def Carrel.ringBytes (c : Carrel) : List Byte :=
  (List.range 64).flatMap fun i => (c.ring.find? fun e => e.1 == i).elim (zeros 32) fun e => e.2.bytes

/-- R101: the 4 KiB of a carrel. -/
def State.carrelBytes (s : State) (k : Nat) : List Byte :=
  match s.carrel? k with
  | none => zeros 0x1000
  | some c => s.carrelHeader k c ++ c.requestBytes 0x40 0x3C0 ++ c.response.bytes ++ c.ringBytes

/-- R71: a word of the control registers; WO fields and reserved words read 0. -/
def State.controlWord (s : State) (off : Nat) : Word32 :=
  let b := s.bar0
  match off with
  | 0x08 => b.pend.setWidth 32
  | 0x0C => (b.pend >>> 32).setWidth 32
  | 0x10 => b.bar2Lo
  | 0x14 => b.bar2HiStaged.setWidth 32
  | 0x20 => b.lock.setWidth 32
  | 0x34 => b.resetCause.setWidth 32
  | 0x40 => if b.bar2Fault then 1#32 else 0#32
  | 0x44 => b.bar2FaultCount
  | 0x48 => b.bar2FaultAddr.setWidth 32
  | 0x4C => (b.bar2FaultAddr >>> 32).setWidth 32 ||| (if b.bar2FaultWrite then 0x80000000#32 else 0#32)
  | _ => 0#32

/-- R84: an entry of the interrupt map; reserved ones read 0. -/
def State.imapWord (s : State) (source : Nat) : Word32 :=
  match s.bar0.intMap[source]? with
  | some e => e.vector.setWidth 32 ||| (if e.disable then 0x100#32 else 0#32)
  | none => 0#32

/-- A word of the MSI-X table: address low, address high, data, vector control. -/
def State.msixWord (s : State) (off : Nat) : Word32 :=
  match s.bar0.msix[off / 16]? with
  | none => 0#32
  | some e =>
    match off / 4 % 4 with
    | 0 => e.addr.setWidth 32
    | 1 => (e.addr >>> 32).setWidth 32
    | 2 => e.data
    | _ => if e.masked then 1#32 else 0#32

/-- R69 to R71: the n bytes of BAR0 at an offset. -/
def State.bar0Bytes (s : State) (off n : Nat) : List Byte :=
  let words (f : Nat → Word32) (base : Nat) : List Byte :=
    if wellSized off n then (List.range (n / 4)).flatMap fun i => leBytes 4 (f (off - base + 4 * i)).toNat else zeros n
  match bar0Part off with
  | 0 => ((s.carrelBytes (off / 4096)).drop (off % 4096)).take n
  | 1 => padTo n (s.catalogueBytes.drop (off - 0x100000))
  | 2 => words s.controlWord 0x200000
  | 3 => words (fun o => s.imapWord (o / 4)) 0x201000
  | 4 => words s.msixWord 0x300000
  | 5 => words (fun o => (s.bar0.pba >>> (8 * o)).setWidth 32) 0x301000
  | _ => zeros n

/-- R69 to R71, R91: what a host read of n bytes of BAR0 at an offset returns: 0 while DEVICE_RESET has not published the ROM edition. -/
def State.bar0Read (s : State) (off n : Nat) : List Byte := if s.pins.softReset then zeros n else s.bar0Bytes off n

/-! ## Bad accesses (R70) -/

/-- R71: the control registers' words; every other word of their block is a reserved offset. -/
def controlWords : List Nat := [0x00, 0x04, 0x08, 0x0C, 0x10, 0x14, 0x20, 0x30, 0x34, 0x40, 0x44, 0x48, 0x4C]

/-- R70, R71: how many bad accesses an access of n bytes holds: one that is badly sized or to a reserved offset is one, and each reserved word
of a well-sized access to the control registers is one. -/
def badAccesses (off n : Nat) : Nat :=
  match bar0Part off with
  | 0 => 0
  | 1 => 0
  | 6 => 1
  | 2 =>
    if wellSized off n then ((List.range (n / 4)).filter fun i => !controlWords.contains (off + 4 * i - 0x200000)).length else 1
  | _ => if wellSized off n then 0 else 1

/-- R70: n bad accesses are counted. -/
def State.countBad (s : State) (n : Nat) : State := { s with host := { s.host with badAccess := bump s.host.badAccess n } }

/-- R70: a bad access completes normally and is counted: a read returns 0 for what it reads badly, a write there is discarded. -/
def execBar0BadAccess (offset size : Nat) (write : Bool) (s : State) : Host.Outcome State Fault Refusal := s.after <|
  if badAccesses offset size == 0 then .next s
  else
    match s.reach with
    | .silent => .next s
    | .unsupported =>
      let s := s.awake.aer .unsupportedRequest
      .next (if write then s else s.send .unsupportedRequest)
    | .served =>
      let t := if s.pins.softReset then s.awake else s.awake.countBad (badAccesses offset size)
      .next (if write then t else t.send (.completion (t.bar0Read offset size) false))

/-! ## Configuration header (R67, R68) -/

/-- A base address register: a memory BAR of two words. -/
structure WideBar where
  prefetchable : Bool
  size         : Nat
  deriving DecidableEq, Repr

/-- R67: the configuration header. A base address register, or an expansion ROM, that is not implemented reads 0. -/
structure ConfigHeader where
  vendorId          : Word16
  deviceId          : Word16
  revisionId        : Byte
  classCode         : BitVec 24
  subsystemVendorId : Word16
  subsystemId       : Word16
  headerType        : Byte
  bar0              : WideBar
  bar2              : WideBar
  bar4              : Option WideBar
  bar5              : Option WideBar
  rom               : Option WideBar
  interruptPin      : Byte
  deriving DecidableEq, Repr

def State.configHeader (s : State) : ConfigHeader where
  vendorId := 0x1F4B#16
  deviceId := 0x0B50#16
  revisionId := s.fuses.revision
  classCode := 0x120000#24
  subsystemVendorId := 0x1F4B#16
  subsystemId := s.fuses.trayModel
  headerType := 0x00#8
  bar0 := ⟨false, 2 ^ 24⟩
  bar2 := ⟨true, 2 ^ 36⟩
  bar4 := none
  bar5 := none
  rom := none
  interruptPin := 0x00#8

/-- R66, R68: the values of the PCI Express capability. The L1 exit latency is a code of the PCIe specification. -/
structure PcieCapability where
  endpoint         : Bool
  payloadBytes     : Nat
  extendedTag      : Bool
  tenBitRequester  : Bool
  tenBitCompleter  : Bool
  functionReset    : Bool
  timeoutRanges    : List Char
  timeoutDisable   : Bool
  aspmL0s          : Bool
  aspmL1           : Bool
  l1ExitLatency    : BitVec 3
  gigatransfers    : Nat
  lanes            : Nat
  deriving DecidableEq, Repr

/-- R68: a capability of the function with its values. -/
inductive Capability
  | powerManagement (states : List String) (noSoftReset pme : Bool) (auxCurrent : Nat)
  | msix (vectors tableBar tableOffset pbaBar pbaOffset : Nat)
  | pciExpress (v : PcieCapability)
  | advancedErrors (ecrcGenerate ecrcCheck : Bool) (headerLogs : Nat)
  | deviceSerial (number : Word64)
  | secondary (equalised : Nat)
  | dataLinkFeature (scaledFlowControl : Bool)
  | physicalLayer (gigatransfers : Nat)
  | laneMargining (timing voltage : Bool) (lanes : Nat)
  deriving DecidableEq, Repr

/-- R66, R68: the capabilities of the function, and no others. -/
def State.capabilities (s : State) : List Capability :=
  [.powerManagement ["D0", "D3hot"] true false 0,
   .msix 256 0 0x300000 0 0x301000,
   .pciExpress
    { endpoint := true, payloadBytes := 512, extendedTag := true, tenBitRequester := true, tenBitCompleter := true, functionReset := true,
      timeoutRanges := ['B', 'C', 'D'], timeoutDisable := true, aspmL0s := false, aspmL1 := true, l1ExitLatency := 0b100#3,
      gigatransfers := 32, lanes := 16 },
   .advancedErrors true true 1, .deviceSerial (s.fuses.serial.setWidth 64), .secondary 8, .dataLinkFeature true, .physicalLayer 16,
   .physicalLayer 32, .laneMargining true true 16]

end Sys2Proof.Machine
end

