-- ==== Sys2Proof/Machine/Dispatch.lean ====
section
/-! DEFINITION. The effect of each command on everything but the queue: one arm per row of the opcode table. -/

namespace Sys2Proof.Machine

/-- The command's effect. -/
def exec (i : Instr) (s : State) : Host.Outcome State Fault Refusal :=
  match i with
  | .powerOn refsStable coldestC discharged => Sys2Proof.Machine.execPowerOn refsStable coldestC discharged s
  | .vinLoss => Sys2Proof.Machine.execVinLoss s
  | .refclkLoss => Sys2Proof.Machine.execRefclkLoss s
  | .perst lowNs => Sys2Proof.Machine.execPerst lowNs s
  | .coldReset lowNs => Sys2Proof.Machine.execColdReset lowNs s
  | .resetEnd coldLast lanes rate failedDie fusesBad => Sys2Proof.Machine.execResetEnd coldLast lanes rate failedDie fusesBad s
  | .linkChange lanes rate => Sys2Proof.Machine.execLinkChange lanes rate s
  | .l1Entry => Sys2Proof.Machine.execL1Entry s
  | .d3hotEntry => Sys2Proof.Machine.execD3hotEntry s
  | .d0Entry => Sys2Proof.Machine.execD0Entry s
  | .functionLevelReset => Sys2Proof.Machine.execFunctionLevelReset s
  | .busMasterEnable => Sys2Proof.Machine.execBusMasterEnable s
  | .msixUnmask u => Sys2Proof.Machine.execMsixUnmask u s
  | .hostCompletionTimeout request => Sys2Proof.Machine.execHostCompletionTimeout request s
  | .hostReadCompletion request answer => Sys2Proof.Machine.execHostReadCompletion request answer s
  | .unexpectedCompletion => Sys2Proof.Machine.execUnexpectedCompletion s
  | .doorbellRing hi value => Sys2Proof.Machine.execDoorbellRing hi value s
  | .bar2BaseLo value => Sys2Proof.Machine.execBar2BaseLo value s
  | .lockPtBase => Sys2Proof.Machine.execLockPtBase s
  | .lockFwRegion => Sys2Proof.Machine.execLockFwRegion s
  | .lockDebug => Sys2Proof.Machine.execLockDebug s
  | .lockFaultInj => Sys2Proof.Machine.execLockFaultInj s
  | .lockShelving => Sys2Proof.Machine.execLockShelving s
  | .deviceReset value => Sys2Proof.Machine.execDeviceReset value s
  | .bar2FaultClear sameCycle => Sys2Proof.Machine.execBar2FaultClear sameCycle s
  | .registerWrite offset data => Sys2Proof.Machine.execRegisterWrite offset data s
  | .bar0BadAccess offset size write => Sys2Proof.Machine.execBar0BadAccess offset size write s
  | .heartbeat carrel value => Sys2Proof.Machine.execHeartbeat carrel value s
  | .cplHead carrel value => Sys2Proof.Machine.execCplHead carrel value s
  | .bar2Read offset length => Sys2Proof.Machine.execBar2Read offset length s
  | .bar2Write offset data arrival => Sys2Proof.Machine.execBar2Write offset data arrival s
  | .carrelEmptyRing carrel => Sys2Proof.Machine.execCarrelEmptyRing carrel s
  | .badOpcode carrel => Sys2Proof.Machine.execBadOpcode carrel s
  | .loadFirmware host sigOk => Sys2Proof.Machine.execLoadFirmware host sigOk s
  | .firmwareBringUp report => Sys2Proof.Machine.execFirmwareBringUp report s
  | .fabricReadRetry block => Sys2Proof.Machine.execFabricReadRetry block s
  | .attach => Sys2Proof.Machine.execAttach s
  | .detach => Sys2Proof.Machine.execDetach s
  | .setOrphanTimeout => Sys2Proof.Machine.execSetOrphanTimeout s
  | .openCarrel => Sys2Proof.Machine.execOpenCarrel s
  | .closeCarrel => Sys2Proof.Machine.execCloseCarrel s
  | .getVersion => Sys2Proof.Machine.execGetVersion s
  | .setMirror carrel => Sys2Proof.Machine.execSetMirror carrel s
  | .getTimestamp carrel => Sys2Proof.Machine.execGetTimestamp carrel s
  | .stageFirmware host sigOk => Sys2Proof.Machine.execStageFirmware host sigOk s
  | .activateFirmware => Sys2Proof.Machine.execActivateFirmware s
  | .handoverBegin => Sys2Proof.Machine.execHandoverBegin s
  | .handoverComplete => Sys2Proof.Machine.execHandoverComplete s
  | .handoverTimeout => Sys2Proof.Machine.execHandoverTimeout s
  | .deferredTimeout elapsedS => Sys2Proof.Machine.execDeferredTimeout elapsedS s
  | .reloadTable carrel => Sys2Proof.Machine.execReloadTable carrel s
  | .bankSwap user tableId => Sys2Proof.Machine.execBankSwap user tableId s
  | .map carrel => Sys2Proof.Machine.execMap carrel s
  | .unmap carrel => Sys2Proof.Machine.execUnmap carrel s
  | .protect carrel => Sys2Proof.Machine.execProtect carrel s
  | .setPtBase => Sys2Proof.Machine.execSetPtBase s
  | .setShelvingKey drawn => Sys2Proof.Machine.execSetShelvingKey drawn s
  | .dmaCopy carrel => Sys2Proof.Machine.execDmaCopy carrel s
  | .faultReply carrel => Sys2Proof.Machine.execFaultReply carrel s
  | .createQueue carrel => Sys2Proof.Machine.execCreateQueue carrel s
  | .destroyQueue carrel => Sys2Proof.Machine.execDestroyQueue carrel s
  | .submit carrel host => Sys2Proof.Machine.execSubmit carrel host s
  | .cancel carrel => Sys2Proof.Machine.execCancel carrel s
  | .queueItemHandoff queue => Sys2Proof.Machine.execQueueItemHandoff queue s
  | .joinGroup carrel => Sys2Proof.Machine.execJoinGroup carrel s
  | .setBuckets carrel => Sys2Proof.Machine.execSetBuckets carrel s
  | .leaveGroup carrel => Sys2Proof.Machine.execLeaveGroup carrel s
  | .setSchedule carrel => Sys2Proof.Machine.execSetSchedule carrel s
  | .setFreezeMask carrel => Sys2Proof.Machine.execSetFreezeMask carrel s
  | .setRoutingDevice carrel => Sys2Proof.Machine.execSetRoutingDevice carrel s
  | .setRoutingLayer carrel => Sys2Proof.Machine.execSetRoutingLayer carrel s
  | .setLayerPolicy carrel => Sys2Proof.Machine.execSetLayerPolicy carrel s
  | .setPowerPolicy => Sys2Proof.Machine.execSetPowerPolicy s
  | .getTelemetry carrel => Sys2Proof.Machine.execGetTelemetry carrel s
  | .injectWindway => Sys2Proof.Machine.execInjectWindway s
  | .injectNearEcc => Sys2Proof.Machine.execInjectNearEcc s
  | .injectDepositoryEcc => Sys2Proof.Machine.execInjectDepositoryEcc s
  | .injectSpine => Sys2Proof.Machine.execInjectSpine s
  | .injectSram => Sys2Proof.Machine.execInjectSram s
  | .setDebug => Sys2Proof.Machine.execSetDebug s
  | .debugRead carrel => Sys2Proof.Machine.execDebugRead carrel s
  | .getIdentity engineOk => Sys2Proof.Machine.execGetIdentity engineOk s
  | .attest engineOk => Sys2Proof.Machine.execAttest engineOk s
  | .readLedger => Sys2Proof.Machine.execReadLedger s
  | .clearCounters carrel => Sys2Proof.Machine.execClearCounters carrel s
  | .orphanTimeout ageMs => Sys2Proof.Machine.execOrphanTimeout ageMs s
  | .scalarInstruction t op => Sys2Proof.Machine.execScalarInstruction t op s
  | .ldB t rd ra => Sys2Proof.Machine.execLdB t rd ra s
  | .ldH t rd ra => Sys2Proof.Machine.execLdH t rd ra s
  | .ldW t rd ra => Sys2Proof.Machine.execLdW t rd ra s
  | .ldD t rd ra => Sys2Proof.Machine.execLdD t rd ra s
  | .loadDataReturn t => Sys2Proof.Machine.execLoadDataReturn t s
  | .stB t rs ra => Sys2Proof.Machine.execStB t rs ra s
  | .stH t rs ra => Sys2Proof.Machine.execStH t rs ra s
  | .stW t rs ra => Sys2Proof.Machine.execStW t rs ra s
  | .stD t rs ra => Sys2Proof.Machine.execStD t rs ra s
  | .amoAdd t rd ra rb => Sys2Proof.Machine.execAmoAdd t rd ra rb s
  | .amoSwap t rd ra rb => Sys2Proof.Machine.execAmoSwap t rd ra rb s
  | .amoCas t rd ra rb rc => Sys2Proof.Machine.execAmoCas t rd ra rb rc s
  | .amoMax t rd ra rb => Sys2Proof.Machine.execAmoMax t rd ra rb s
  | .issueM t ra => Sys2Proof.Machine.execIssueM t ra s
  | .issueV t ra => Sys2Proof.Machine.execIssueV t ra s
  | .issueR t ra => Sys2Proof.Machine.execIssueR t ra s
  | .issueAccepted t => Sys2Proof.Machine.execIssueAccepted t s
  | .fenceQ t => Sys2Proof.Machine.execFenceQ t s
  | .fenceC t => Sys2Proof.Machine.execFenceC t s
  | .fenceD t => Sys2Proof.Machine.execFenceD t s
  | .fenceS t => Sys2Proof.Machine.execFenceS t s
  | .fenceComplete t => Sys2Proof.Machine.execFenceComplete t s
  | .wait t w => Sys2Proof.Machine.execWait t w s
  | .waitWake t cyclesPassed => Sys2Proof.Machine.execWaitWake t cyclesPassed s
  | .cyc t rd => Sys2Proof.Machine.execCyc t rd s
  | .endThread t => Sys2Proof.Machine.execEndThread t s
  | .illegalInstruction t => Sys2Proof.Machine.execIllegalInstruction t s
  | .threadLaunch queue => Sys2Proof.Machine.execThreadLaunch queue s
  | .matmul e groups => Sys2Proof.Machine.execMatmul e groups s
  | .matmulEnd e => Sys2Proof.Machine.execMatmulEnd e s
  | .drain e => Sys2Proof.Machine.execDrain e s
  | .drainEnd e => Sys2Proof.Machine.execDrainEnd e s
  | .inputOperation cdie => Sys2Proof.Machine.execInputOperation cdie s
  | .inputOperationEnd cdie => Sys2Proof.Machine.execInputOperationEnd cdie s
  | .preemption e => Sys2Proof.Machine.execPreemption e s
  | .preemptedResume e => Sys2Proof.Machine.execPreemptedResume e s
  | .vCopy e => Sys2Proof.Machine.execVCopy e s
  | .vAdd e => Sys2Proof.Machine.execVAdd e s
  | .vSub e => Sys2Proof.Machine.execVSub e s
  | .vMul e => Sys2Proof.Machine.execVMul e s
  | .vFma e => Sys2Proof.Machine.execVFma e s
  | .vMax e => Sys2Proof.Machine.execVMax e s
  | .vMin e => Sys2Proof.Machine.execVMin e s
  | .vAbs e => Sys2Proof.Machine.execVAbs e s
  | .vNeg e => Sys2Proof.Machine.execVNeg e s
  | .vScale e => Sys2Proof.Machine.execVScale e s
  | .vSelect e => Sys2Proof.Machine.execVSelect e s
  | .vCmpEq e => Sys2Proof.Machine.execVCmpEq e s
  | .vCmpLt e => Sys2Proof.Machine.execVCmpLt e s
  | .vCmpLe e => Sys2Proof.Machine.execVCmpLe e s
  | .vCmpUn e => Sys2Proof.Machine.execVCmpUn e s
  | .vAnd e => Sys2Proof.Machine.execVAnd e s
  | .vOr e => Sys2Proof.Machine.execVOr e s
  | .vXor e => Sys2Proof.Machine.execVXor e s
  | .vNot e => Sys2Proof.Machine.execVNot e s
  | .vGather e => Sys2Proof.Machine.execVGather e s
  | .vScatter e => Sys2Proof.Machine.execVScatter e s
  | .vRsum e => Sys2Proof.Machine.execVRsum e s
  | .vRmax e => Sys2Proof.Machine.execVRmax e s
  | .vRmin e => Sys2Proof.Machine.execVRmin e s
  | .vRstats e => Sys2Proof.Machine.execVRstats e s
  | .vExp2 e => Sys2Proof.Machine.execVExp2 e s
  | .vLog2 e => Sys2Proof.Machine.execVLog2 e s
  | .vExp e => Sys2Proof.Machine.execVExp e s
  | .vLog e => Sys2Proof.Machine.execVLog e s
  | .vSqrt e => Sys2Proof.Machine.execVSqrt e s
  | .vRecip e => Sys2Proof.Machine.execVRecip e s
  | .vRsqrt e => Sys2Proof.Machine.execVRsqrt e s
  | .vSigmoid e => Sys2Proof.Machine.execVSigmoid e s
  | .vTanh e => Sys2Proof.Machine.execVTanh e s
  | .vGelu e => Sys2Proof.Machine.execVGelu e s
  | .vSin e => Sys2Proof.Machine.execVSin e s
  | .vCos e => Sys2Proof.Machine.execVCos e s
  | .vPoscode e => Sys2Proof.Machine.execVPoscode e s
  | .vSmmerge e => Sys2Proof.Machine.execVSmmerge e s
  | .vSmexp e => Sys2Proof.Machine.execVSmexp e s
  | .vSmnorm e => Sys2Proof.Machine.execVSmnorm e s
  | .vSmprob e => Sys2Proof.Machine.execVSmprob e s
  | .vStmerge e => Sys2Proof.Machine.execVStmerge e s
  | .vNormapply e => Sys2Proof.Machine.execVNormapply e s
  | .vMprog e => Sys2Proof.Machine.execVMprog e s
  | .vectorEnd e => Sys2Proof.Machine.execVectorEnd e s
  | .route xdie => Sys2Proof.Machine.execRoute xdie s
  | .routeHoldRelease xdie => Sys2Proof.Machine.execRouteHoldRelease xdie s
  | .recall xdie => Sys2Proof.Machine.execRecall xdie s
  | .release xdie => Sys2Proof.Machine.execRelease xdie s
  | .routingEnd xdie => Sys2Proof.Machine.execRoutingEnd xdie s
  | .faultReport r => Sys2Proof.Machine.execFaultReport r s
  | .dmaStart queue xdie engine => Sys2Proof.Machine.execDmaStart queue xdie engine s
  | .dmaEnd xdie engine => Sys2Proof.Machine.execDmaEnd xdie engine s
  | .reduceGradient xdie => Sys2Proof.Machine.execReduceGradient xdie s
  | .reduceStats xdie => Sys2Proof.Machine.execReduceStats xdie s
  | .accumulateBurst xdie group source => Sys2Proof.Machine.execAccumulateBurst xdie group source s
  | .burstReoffer xdie group source => Sys2Proof.Machine.execBurstReoffer xdie group source s
  | .groupTimeout group => Sys2Proof.Machine.execGroupTimeout group s
  | .updateStart layer => Sys2Proof.Machine.execUpdateStart layer s
  | .updatePass2 layer => Sys2Proof.Machine.execUpdatePass2 layer s
  | .updateEnd layer => Sys2Proof.Machine.execUpdateEnd layer s
  | .portTrained port lanes => Sys2Proof.Machine.execPortTrained port lanes s
  | .linkInfo port frame => Sys2Proof.Machine.execLinkInfo port frame s
  | .wwRead port frame => Sys2Proof.Machine.execWwRead port frame s
  | .wwWrite port frame => Sys2Proof.Machine.execWwWrite port frame s
  | .wwAmo port frame => Sys2Proof.Machine.execWwAmo port frame s
  | .wwResponse port frame => Sys2Proof.Machine.execWwResponse port frame s
  | .wwBucket port frame => Sys2Proof.Machine.execWwBucket port frame s
  | .wwGrant port frame => Sys2Proof.Machine.execWwGrant port frame s
  | .wwResult port frame => Sys2Proof.Machine.execWwResult port frame s
  | .wwStatsIn port frame => Sys2Proof.Machine.execWwStatsIn port frame s
  | .wwStatsOut port frame => Sys2Proof.Machine.execWwStatsOut port frame s
  | .wwNak port frame => Sys2Proof.Machine.execWwNak port frame s
  | .wwIdle port frame => Sys2Proof.Machine.execWwIdle port frame s
  | .frameDiscard port frame => Sys2Proof.Machine.execFrameDiscard port frame s
  | .idleSend port => Sys2Proof.Machine.execIdleSend port s
  | .retryTimeout port => Sys2Proof.Machine.execRetryTimeout port s
  | .portRetrain port => Sys2Proof.Machine.execPortRetrain port s
  | .portDown port => Sys2Proof.Machine.execPortDown port s
  | .trainingRetry port => Sys2Proof.Machine.execTrainingRetry port s
  | .remoteTimeout tag => Sys2Proof.Machine.execRemoteTimeout tag s
  | .bellowsSample avg50us avg1ms vinMv outFor10us => Sys2Proof.Machine.execBellowsSample avg50us avg1ms vinMv outFor10us s
  | .dieSensorRead kind die tempC => Sys2Proof.Machine.execDieSensorRead kind die tempC s
  | .stackSensorRead tier stack tempC => Sys2Proof.Machine.execStackSensorRead tier stack tempC s
  | .emergencyClear cause durationMs => Sys2Proof.Machine.execEmergencyClear cause durationMs s
  | .skipStepDown cdie => Sys2Proof.Machine.execSkipStepDown cdie s
  | .powerLoopTick avg10ms => Sys2Proof.Machine.execPowerLoopTick avg10ms s
  | .timestampRecorrelate => Sys2Proof.Machine.execTimestampRecorrelate s
  | .domainGate d => Sys2Proof.Machine.execDomainGate d s
  | .domainWake d => Sys2Proof.Machine.execDomainWake d s
  | .scrub tier stack channel wrong => Sys2Proof.Machine.execScrub tier stack channel wrong s
  | .sramScrub place inKey bits => Sys2Proof.Machine.execSramScrub place inKey bits s
  | .hotStackWindow tier holdNs tie => Sys2Proof.Machine.execHotStackWindow tier holdNs tie s
  | .spineFlitReplay link dir => Sys2Proof.Machine.execSpineFlitReplay link dir s
  | .spineLaneRetire link dir lane => Sys2Proof.Machine.execSpineLaneRetire link dir lane s
  | .smbStatus pecOk => Sys2Proof.Machine.execSmbStatus pecOk s
  | .smbPowerW pecOk => Sys2Proof.Machine.execSmbPowerW pecOk s
  | .smbVinMv pecOk => Sys2Proof.Machine.execSmbVinMv pecOk s
  | .smbTempMaxC pecOk => Sys2Proof.Machine.execSmbTempMaxC pecOk s
  | .smbPmaxW pecOk => Sys2Proof.Machine.execSmbPmaxW pecOk s
  | .smbTripSite pecOk => Sys2Proof.Machine.execSmbTripSite pecOk s
  | .smbSerial pecOk => Sys2Proof.Machine.execSmbSerial pecOk s
  | .configurationWrite w => Sys2Proof.Machine.execConfigurationWrite w s
  | .l1Exit => Sys2Proof.Machine.execL1Exit s

end Sys2Proof.Machine
end

