-- ==== Sys2Proof/Safety.lean ====
section
/-! DEFINITION. What the statements about the block speak of: a command at the front, a ring that is taken and its answer, memory that is
clean, what an access meets, the resets, and what a safe state keeps. -/

namespace Sys2Proof.Machine

/-! ## Resets -/

/-- R88, R91, R515, R516: commands that may reset the whole part. -/
def mayReset : Instr → Bool
  | .powerOn _ _ _ => true
  | .vinLoss => true
  | .perst _ => true
  | .coldReset _ => true
  | .deviceReset _ => true
  | .registerWrite off data => reachesReset off data.what.length
  | _ => false

/-- R69, R91: BAR0 registers answer the host: the link is up, memory space is on, and no DEVICE_RESET is under way. -/
def State.registersServed (s : State) : Bool := s.reach == .served && !s.pins.softReset

/-- R71, R91, R515 to R517: the command resets the whole part in this state. -/
def resetsNow (s : State) : Instr → Bool
  | .powerOn refs cold discharged =>
    (!s.pins.powered && discharged) || (s.pins.powered && !s.pins.pgood && refs && decide (0 ≤ cold))
  | .vinLoss => s.pins.powered
  | .perst lowNs => s.pins.pgood && decide (10000 ≤ lowNs)
  | .coldReset lowNs => s.pins.pgood && decide (10000 ≤ lowNs)
  | .deviceReset v => s.registersServed && v.setWidth 16 == 0x5153#16 && v.getLsbD 16
  | _ => false

/-! ## The host's requests (R80 to R86) -/

/-- R86: a TLP that arrives whole, at the first try. -/
def plainTlp : Arrival := ⟨[], false, false⟩

/-- R80, R124, R415: nothing waits to go out: every copy stands at a request, a fault or its end; no thread waits to send or to write its
record; no pre-empted operation waits to write its own; no REDUCE is under way, and no frame in a hold. -/
def NothingHeld (s : State) : Bool :=
  (s.dma.all fun j => j.all fun j => !j.held && !j.owed && j.stopped)
    && (s.clusters.all fun c =>
      (c.threads.all fun th => !(th.state == .waiting && th.wait == .outlet) && (th.ending.isNone || th.suspended.isSome))
        && c.matrix.preempted.all fun op => op.ended.isNone || op.suspended.isSome)
    && (s.consorts.all fun c => c.active.isNone && c.running.isEmpty) && s.coll.held.isEmpty

/-! ## Rings (R104, R105, R110, R112) -/

/-- A ring that firmware takes: carrel k, open, holds request c, whose ring is pending, whose SEQ is the next, whose opcode is op and whose
payload has len bytes; the device is READY, not in a handover, and owes the carrel no answer to an earlier request. -/
def RungFirst (s : State) (k op len : Nat) (c : Carrel) : Prop :=
  s.carrel? k = some c ∧ s.bar0.pend.getLsbD k = true ∧ s.fw.start = .ready ∧ s.fw.activation ≠ .handing
    ∧ s.midRequest k = false ∧ (k = 0 ∨ c.isOpen = true)
    ∧ c.opcode = op ∧ c.payloadLen = len ∧ c.reqSeq = c.rspSeq + 1#32

/-- A ring of a command of an attached session, whose driver is of firmware's Uadin version. -/
def Rung (s : State) (k op len : Nat) (c : Carrel) : Prop :=
  RungFirst s k op len c ∧ s.session.state = .attached ∧ s.uadinDiffers = false

/-- The payload of a request of len bytes. -/
def Carrel.payload (c : Carrel) (len : Nat) : List Byte := c.requestBytes 0x50 len

/-- The request c of carrel k has been answered: its SEQ returned, and this status, detail, ticket and payload in the response area. -/
def Answered (t : State) (k : Nat) (c : Carrel) (status detail : Nat) (ticket : Word32) (payload : List Byte) : Prop :=
  ∃ c', t.carrel? k = some c' ∧ c'.rspSeq = c.reqSeq ∧ c'.response = ⟨c.opcode, c.tag, status, detail, ticket, payload⟩

/-- The request c of carrel k has been answered; the state is u but for what a message to the host changes (the pending bits of the messages, the
output, the link) and for what no command changes (fuses, queue, LOCK bits and the ever flags). -/
def Replied (s u t : State) (k : Nat) (c : Carrel) (status detail : Nat) (ticket : Word32) (payload : List Byte) : Prop :=
  t = s.latched (s.fixed { u with carrels := t.carrels, bar0 := { u.bar0 with pba := t.bar0.pba }, link := t.link, out := t.out })
    ∧ t.carrels = u.carrels.modify k (fun x =>
        { x with rspSeq := c.reqSeq, response := ⟨c.opcode, c.tag, status, detail, ticket, payload⟩ })
    ∧ u.out <+: t.out

/-- R306: once ring k is taken, firmware reads the n bytes d at va for its command, which leaves s'. -/
def CommandReads (s : State) (k va n : Nat) (d : List Byte) (s' : State) : Prop := (s.clearPend k).commandRead va n = (.ok d, s')

/-! ## Memory (R348 to R367, R387 to R390) -/

/-- No protected unit is poisoned and no fault injection is in force. -/
def Clean (s : State) : Prop :=
  s.mem.near.poison = [] ∧ s.mem.dep.poison = [] ∧ s.mem.loc.poison = [] ∧ s.injections = []

/-- The access meets n bytes of one memory, from offset o on. -/
def Lands (s : State) (who : Origin) (acc : Acc) (va n : Nat) (sp : Space) (o : Nat) : Prop :=
  s.translateSpan who acc va n = .ok [(.mem sp o, n)]

/-- One byte of a memory. -/
def State.byteAt (s : State) (sp : Space) (o : Nat) : Byte := (s.mem.store sp).byteAt o

/-- Every byte of every memory reads as before. -/
def SameMemory (s t : State) : Prop := ∀ sp o, t.byteAt sp o = s.byteAt sp o

/-- Bytes o to o + n - 1 of a memory have become bs; every other byte of every memory reads as before. -/
def Stored (s t : State) (sp : Space) (o : Nat) (bs : List Byte) : Prop :=
  ∀ sp' a, t.byteAt sp' a = if sp' = sp ∧ o ≤ a ∧ a < o + bs.length then bs.getD (a - o) 0#8 else s.byteAt sp' a

/-! ## Threads (R341 to R347) -/

/-- The state in which a thread has the turn to issue (R342). -/
def State.issuing (s : State) (t : ThreadId) : State := s.modCluster t.at_ fun c => { c with lastIssued := t.thread }

/-- A RUNNING thread th, whose turn it is, fetches its next instruction; s' is the state after the fetch, whose read the memory's counters
count. -/
def Fetched (s : State) (t : ThreadId) (th : Thread) (s' : State) : Prop :=
  s.thread? t = some th ∧ th.state = .running ∧ (s.cluster? t.at_).bind Cluster.turn = some t.thread ∧ th.pc.toNat % 4 = 0
    ∧ ∃ b, (s.issuing t).vread (threadReader t) .device .fetch th.pc.toNat 4 = (.bytes b, s')

/-- What an instruction of a thread leaves alone: every other thread, the host's registers, carrels, queues and tables. -/
def ThreadFrame (s t : State) (tid : ThreadId) : Prop :=
  (∀ u, u ≠ tid → t.thread? u = s.thread? u) ∧ t.bar0 = s.bar0 ∧ t.carrels = s.carrels ∧ t.queues = s.queues ∧ t.tr = s.tr
    ∧ t.session = s.session ∧ t.fw = s.fw ∧ t.coll = s.coll ∧ t.update = s.update

/-- The descriptors in an engine's queue. -/
def State.engineQueue (s : State) : EngineRef → List Work
  | .matrix e => (s.cluster? e).elim [] fun c => c.matrix.queue
  | .vector e => (s.cluster? e).elim [] fun c => c.vector.queue
  | .router x => (s.routers[x]?).elim [] fun r => r.queue
  | .consort x => (s.consorts[x]?).elim [] fun c => c.queue

/-! ## Operations in local memory (R228, R238, R243, R259, R263) -/

/-- R263: bytes p.1 to p.2 - 1, if any, lie in the part of a cluster's own local window that every cluster has. -/
def AtHome (e : ClusterId) (p : Nat × Nat) : Prop :=
  p.1 < p.2 → localBase + e.index * 2 ^ 25 ≤ p.1 ∧ p.2 ≤ localBase + e.index * 2 ^ 25 + 0x1040000

/-- Rows of bytes: a base, a pitch, how many, bytes of each; from the lowest byte to one past the highest. -/
def rowsSpan (base pitch n bytes : Nat) : Nat × Nat := (base, base + (n - 1) * pitch + bytes)

/-- R267 to R270, R275, R279, R308, R311: the arrays that a vector instruction reads or writes. -/
def VecDesc.arrays (x : VecDesc) (d : List Byte) : List (Nat × Nat) :=
  let source (b : Stream) (used : Bool) : List (Nat × Nat) :=
    if !used || b.src != 0 then []
    else if isMerge x.op then [(b.base, b.base + recordBytes x.op * x.count)]
    else
      let n := if x.op == 0x20 && b == x.a then x.aux0 else x.count
      [b.span n, b.scaleSpan n]
  source x.a true ++ source x.b (usesB x d) ++ source x.c (usesC x.op) ++ x.destSpan :: x.extraSpans
    ++ (if x.maskEn then [(x.mask, x.mask + ceilDiv x.count 8)] else [])
    ++ (if x.op == 0x59 then [(x.auxAddr, x.auxAddr + 16 * x.count)] else [])
    ++ (if x.rnd == stoch && field (get32 d 0x7C) 20 19 == 2 then [(descAddr d 0x80, descAddr d 0x80 + 1024)] else [])

/-- R237, R239: the bytes of n rows or columns of K positions of an operand, and of their scales. -/
def Operand.arrays (o : Operand) (n k : Nat) : List (Nat × Nat) :=
  rowsSpan o.base o.pitch n (ceilDiv (k * fmtWidth o.fmt) 8)
    :: (if o.scaled then [rowsSpan o.scaleBase o.scalePitch n (ceilDiv k 32)] else [])

/-- R178, R183, R239, R243, R244: the arrays of a matrix operation. -/
def MatDesc.arrays (x : MatDesc) (d : List Byte) : List (Nat × Nat) :=
  x.a.arrays x.m x.k ++ x.b.arrays x.n x.k
    ++ (if x.cls == 0 then [rowsSpan x.block x.blockPitch x.m (4 * x.n)]
        else if x.sparse then [rowsSpan x.block x.blockPitch (ceilDiv x.n 16) (ceilDiv (ceilDiv x.k 16) 8)] else [])
    ++ (if x.binOut == 0 then [] else [rowsSpan x.binOut x.binPitch x.m (ceilDiv x.k 8)])
    ++ (if x.flutters && (streamsAt d []).mode == 2 then [((streamsAt d []).arg, (streamsAt d []).arg + 4 * x.tableWords)] else [])

/-- R215 to R219: what a drain writes. -/
def DrainDesc.outputs (x : DrainDesc) : List (Nat × Nat) :=
  let n := x.tiles * x.size.1
  rowsSpan x.dstVa x.pitch n (ceilDiv (x.size.2 * fmtWidth x.dst) 8)
    :: ((if x.scaled then [rowsSpan x.scaleVa x.scalePitch n (x.size.2 / 32)] else [])
      ++ (if x.rowstat == 0 then [] else [(x.statVa, x.statVa + 16 * n)]))

def DrainDesc.arrays (x : DrainDesc) (d : List Byte) : List (Nat × Nat) :=
  x.outputs ++ (if x.maskEn then [rowsSpan x.maskVa x.maskPitch (x.tiles * x.size.1) (x.size.2 / 8)] else [])
    ++ (if x.rnd == stoch && (streamsAt d []).mode == 2 then [((streamsAt d []).arg, (streamsAt d []).arg + 65536)] else [])

/-- Only local memory has changed, and of it only bytes of these address ranges. -/
def WroteOnly (s t : State) (l : List (Nat × Nat)) : Prop :=
  t.mem.near = s.mem.near ∧ t.mem.dep = s.mem.dep
    ∧ ∀ a, (∀ r ∈ l, ¬ (r.1 ≤ localBase + a ∧ localBase + a < r.2)) → t.byteAt .loc a = s.byteAt .loc a

/-- What an operation of an engine leaves alone: registers, carrels, queues, mappings, collective and update state. -/
def EngineFrame (s t : State) : Prop :=
  t.bar0 = s.bar0 ∧ t.carrels = s.carrels ∧ t.queues = s.queues ∧ t.tr = s.tr ∧ t.session = s.session ∧ t.fw = s.fw ∧ t.coll = s.coll
    ∧ t.update = s.update ∧ t.ledger = s.ledger

/-- R271, R290: the vector commands, each with the lowest and the highest opcode it takes. -/
def vectorCommands (e : ClusterId) : List (Instr × Nat × Nat) :=
  [(.vCopy e, 0x00, 0x00), (.vAdd e, 0x01, 0x01), (.vSub e, 0x02, 0x02), (.vMul e, 0x03, 0x03), (.vFma e, 0x04, 0x04), (.vMax e, 0x05, 0x05),
   (.vMin e, 0x06, 0x06), (.vAbs e, 0x07, 0x07), (.vNeg e, 0x08, 0x08), (.vScale e, 0x09, 0x09), (.vSelect e, 0x0A, 0x0A),
   (.vCmpEq e, 0x10, 0x10), (.vCmpLt e, 0x11, 0x11), (.vCmpLe e, 0x12, 0x12), (.vCmpUn e, 0x13, 0x13), (.vAnd e, 0x18, 0x18),
   (.vOr e, 0x19, 0x19), (.vXor e, 0x1A, 0x1A), (.vNot e, 0x1B, 0x1B), (.vGather e, 0x20, 0x20), (.vScatter e, 0x21, 0x21)]
  ++ [(.vRsum e, 0x30, 0x30), (.vRmax e, 0x31, 0x31), (.vRmin e, 0x32, 0x32), (.vRstats e, 0x33, 0x33), (.vExp2 e, 0x40, 0x40),
   (.vLog2 e, 0x41, 0x41), (.vExp e, 0x42, 0x42), (.vLog e, 0x43, 0x43), (.vSqrt e, 0x44, 0x44), (.vRecip e, 0x45, 0x45),
   (.vRsqrt e, 0x46, 0x46), (.vSigmoid e, 0x47, 0x47), (.vTanh e, 0x48, 0x48), (.vGelu e, 0x49, 0x49), (.vSin e, 0x4A, 0x4A),
   (.vCos e, 0x4B, 0x4B), (.vPoscode e, 0x4C, 0x4C), (.vSmmerge e, 0x50, 0x50), (.vSmexp e, 0x51, 0x51), (.vSmnorm e, 0x52, 0x52),
   (.vSmprob e, 0x53, 0x53), (.vStmerge e, 0x58, 0x58), (.vNormapply e, 0x59, 0x59), (.vMprog e, 0x60, 0x7F)]

/-- R230: a status record may be written at an address: there is none, or its n bytes lie in one memory of the device. -/
def RecordFits (s : State) (va n : Nat) : Prop := va = 0 ∨ ∃ sp o, Lands s .device .write va n sp o

/-- R230, R231: the n bytes of the record have been written, DONE, STATUS and DETAIL in their first word, and nothing else; or nothing at
address 0. -/
def Recorded (s t : State) (va n status detail : Nat) : Prop :=
  (va = 0 → SameMemory s t)
    ∧ ∀ sp o, va ≠ 0 → Lands s .device .write va n sp o →
        ∃ bs : List Byte, bs.length = n ∧ bs.take 4 = leBytes 4 (status + detail % 32768 * 2 ^ 16 + 2 ^ 31) ∧ Stored s t sp o bs

/-- R229, R346: the work is no longer outstanding: its thread no longer waits for it, its queue's item has ended. -/
def Finished (t : State) (w : Work) : Prop :=
  (∀ tid num tag th, w.issuer = .thread tid num tag → t.thread? tid = some th → w.uid ∉ th.issued)
    ∧ ∀ num q, w.issuer = .queue num → t.queue? num = some q →
        ∀ it ∈ q.items, it.uid = w.uid → ∃ st de lo hi, it.state = .ended st de lo hi

/-! ## Accesses byte by byte (R348) -/

/-- Each of n bytes from va on is met in one memory, from offset o on, one after another. -/
def Maps (s : State) (who : Origin) (acc : Acc) (va n : Nat) (sp : Space) (o : Nat) : Prop :=
  ∀ i, i < n → Lands s who acc (va + i) 1 sp (o + i)

/-- The device may make this access to every byte from r.1 to r.2 - 1, all in its own memory. -/
def Reachable (s : State) (acc : Acc) (r : Nat × Nat) : Prop :=
  ∀ v, r.1 ≤ v → v < r.2 → ∃ sp o, Lands s .device acc v 1 sp o

/-- Of memory only bytes that these address ranges lead to have changed. -/
def WritesWithin (s t : State) (l : List (Nat × Nat)) : Prop :=
  ∀ sp a, (∀ r ∈ l, ∀ v, r.1 ≤ v → v < r.2 → ¬ Lands s .device .write v 1 sp a) → t.byteAt sp a = s.byteAt sp a

/-! ## The Spine (R24 to R27) -/

/-- The die at which hops from a die end, each over a link that the die before it has; direction 0 is from the link's end A to its end B. -/
def Part.follow (p : Part) : DieKind × Nat → List (Nat × Nat) → Option (DieKind × Nat)
  | d, [] => some d
  | d, h :: hs =>
    match p.linkRows[h.1]? with
    | none => none
    | some l =>
      let a := (dieKindOf l.aKind, l.aDie)
      let b := (dieKindOf l.bKind, l.bDie)
      if h.2 = 0 ∧ d = a then p.follow b hs else if h.2 = 1 ∧ d = b then p.follow a hs else none

/-! ## Routing (R330 to R336) -/

/-- R330: the arrays that a ROUTE writes. -/
def routeOutputs (x : RouteDesc) (r : LayerRec) : List (Nat × Nat) :=
  let rows := 4 * (r.experts * r.rows)
  let words := 4 * (x.tokens * r.k)
  [(r.dispatch, r.dispatch + rows), (r.dgate, r.dgate + rows), (r.counts, r.counts + 8 * r.experts), (x.combine, x.combine + words),
    (x.cgate, x.cgate + words)]

/-- R325, R330: every array of a ROUTE can be accessed. -/
def RouteReaches (s : State) (x : RouteDesc) (r : LayerRec) : Prop :=
  (∀ i, i < x.tokens →
      Reachable s .read (x.scores + i * x.pitch, x.scores + i * x.pitch + ceilDiv (r.experts * fmtWidth x.fmt) 8))
    ∧ (r.bias ≠ 0 → Reachable s .read (r.bias, r.bias + 4 * r.experts))
    ∧ (r.mask ≠ 0 → Reachable s .read (r.mask, r.mask + ceilDiv r.experts 8))
    ∧ ∀ p ∈ routeOutputs x r, Reachable s .write p

/-- R327 to R334: the ROUTE w has run in state s, and nothing is left but its end: each token has its flow entry, what the reservation held is
spent, no queue is longer than its capacity, and only the outputs are written. -/
def RouteRan (s t : State) (xd : Nat) (w : Work) (r : LayerRec) (queue hold : List Work) : Prop :=
  let x := RouteDesc.of w.desc
  ∃ e op, t.router? xd = some e ∧ e.queue = queue ∧ e.hold = hold ∧ e.active = some op ∧ op.work = w ∧ op.ended = some ⟨0, 0⟩
    ∧ op.suspended = none ∧ t.routing.free + x.tokens = s.routing.free
    ∧ (∃ new, t.routing.table = s.routing.table ++ new ∧ new.length = x.tokens ∧ op.plan.length = x.tokens
        ∧ ∀ (i : Nat) (f : FlowEntry) (p : TokenPlan), new[i]? = some f → op.plan[i]? = some p →
            f.keyed x (x.base + i) = true ∧ f.k = r.k ∧ f.nan = p.nan ∧ f.choices.take r.k = p.choices)
    ∧ (x.batch = 0 → ∀ c ∈ (t.routeCounts x).counts, c.2.1 ≤ r.cap ∧ c.2.2 ≤ r.ovfCap)
    ∧ t.routing.layers = s.routing.layers ∧ WritesWithin s t (routeOutputs x r) ∧ EngineFrame s t

/-- A routing engine that has just ended w, which changed nothing, with a status. -/
def RouteRefused (s t : State) (xd : Nat) (w : Work) (queue hold : List Work) (status : Nat) : Prop :=
  (∃ e op, t.router? xd = some e ∧ e.queue = queue ∧ e.hold = hold ∧ e.active = some op ∧ op.work = w ∧ op.ended = some ⟨status, 0⟩)
    ∧ t.routing = s.routing ∧ t.mem = s.mem ∧ EngineFrame s t

/-- R334: with no spill list, FREE counts no more than the entries of the table that are FREE. -/
def FlowRoom (s : State) : Prop := s.routing.free + s.routing.table.length ≤ flowEntries

/-- R333: the entry of the flow table that the search for token i of a descriptor finds. -/
def State.entryOf (s : State) (x : RouteDesc) (i : Nat) : Option FlowEntry :=
  s.routing.table.find? fun f => f.keyed x (x.base + i)

/-- R332, R333: no two entries of the table share an index or a key, none is corrupt, and the spill list is empty. -/
def TableSound (s : State) (x : RouteDesc) : Prop :=
  (s.routing.table.map fun f => f.index).Nodup ∧ (∀ f ∈ s.routing.table, f.corrupt = 0) ∧ s.routing.spillUsed = []
    ∧ ∀ f ∈ s.routing.table, ∀ g ∈ s.routing.table, ∀ n, f.keyed x n = true → g.keyed x n = true → f = g

/-- R335: the words that a RECALL writes for a token. -/
def recallWords (r : LayerRec) (f : Option FlowEntry) : List Byte :=
  (List.range r.k).flatMap fun j => leBytes 4 (match f with
    | some e => if e.nan then 0xFFFFFFFF else rowIndex r (e.choices.getD j 0#32)
    | none => 0xFFFFFFFF)

/-! ## Collectives (R402 to R427) -/

/-- No REDUCE waits for its results, and no result or statistics frame waits to be taken in. -/
def Quiet (s : State) : Prop := s.reduces = [] ∧ s.coll.held = []

/-- A numbered frame of a type for this rank that port p takes. -/
def ForThisRank (s : State) (p : Nat) (f : Frame) (type : Nat) : Prop :=
  (∃ x, s.port? p = some x ∧ x.state = .up ∧ x.accepts f = true) ∧ s.ww.fabric.turn f.dst = none ∧ s.ww.fabric.reaches f.dst = true ∧ f.type = type

/-- R405: what the compression of block q of a layer comes to, its gradients and errors read from offsets og and oe. -/
def blockOf (s : State) (bank : Option (List Nat)) (l : LayerLayout) (sg se : Space) (og oe q : Nat) : Packed :=
  let bytes (sp : Space) (o n : Nat) : Nat := leNat ((List.range n).map fun i => s.byteAt sp (o + i))
  packBlock ((List.range (min 256 (l.elements - 256 * q))).map fun i =>
    carryIn bank l.gradFmt (bytes sg (og + (256 * q + i) * l.gradBytes) l.gradBytes) (bytes se (oe + 4 * (256 * q + i)) 4))

/-! ## What every step keeps -/

/-- R538, R540: debug mode that is on has been on, and a fault-injection setting in force has been in force, since the last reset. -/
def EverFlagsCover (s : State) : Prop :=
  (s.fw.debugOn = true → s.fw.debugEver = true) ∧ (s.injections ≠ [] → s.fw.injectEver = true)

end Sys2Proof.Machine
end

