-- ==== Sys2Proof/Certificates/Slice0/Obligations.lean ====
section
/-! DEFINITION. The statements about the block, for the provers. -/

open Sys2Proof Sys2Proof.Machine

/-! ## The step, and what every step keeps -/

/-- A step takes the command at the front of the queue and runs it on the state with the queue's rest. -/
def Obligations.StepRunsTheFrontCommand : Prop :=
  ∀ (s : State) (c : Instr) (rest : List Instr), s.pending = c :: rest → step s = exec c { s with pending := rest }

/-- On an empty queue nothing happens (the model's choice, log 6); and no command changes the queue's rest or a fuse (R12). -/
def Obligations.QueueAndFusesAreLeftAlone : Prop :=
  (∀ s : State, s.pending = [] → step s = .next s)
    ∧ ∀ (s t : State) (c : Instr), exec c s = .next t → t.pending = s.pending ∧ t.fuses = s.fuses

/-- R540, R542: no step but a reset of the whole part clears a LOCK bit, DEBUG_EVER or INJECT_EVER. -/
def Obligations.SealsLastUntilAReset : Prop :=
  ∀ (s t : State) (c : Instr) (rest : List Instr), s.pending = c :: rest → mayReset c = false → step s = .next t →
    (∀ i, s.bar0.lock.getLsbD i = true → t.bar0.lock.getLsbD i = true)
      ∧ (s.fw.debugEver = true → t.fw.debugEver = true) ∧ (s.fw.injectEver = true → t.fw.injectEver = true)

/-- The memories stay in their canonical form: addresses strictly rising, no byte listed that an unlisted address would read as. -/
def Obligations.EveryStepKeepsMemoryCanonical : Prop :=
  ∀ s t : State, s.mem.wf = true → step s = .next t → t.mem.wf = true

/-- R538, R542: DEBUG_EVER covers debug mode, and INJECT_EVER every fault-injection setting in force, after every step. -/
def Obligations.EverFlagsCoverWhatIsInForce : Prop :=
  ∀ s t : State, EverFlagsCover s → step s = .next t → EverFlagsCover t

/-- R12, R71, R102: the state after reset meets both invariants, with every LOCK bit 0, no session and START_STATUS 0. -/
def Obligations.ResetStateMeetsTheInvariants : Prop :=
  State.reset.mem.wf = true ∧ EverFlagsCover State.reset ∧ State.reset.bar0.lock = 0#5
    ∧ State.reset.session.state = .detached ∧ State.reset.fw.start = .off ∧ State.reset.carrels.length = 64
    ∧ State.reset.pending = []

/-! ## Resets, power and the link (R63 to R66, R88 to R95, R515 to R518) -/

/-- R88, R91, R515, R516: POWER_ON, VIN_LOSS, PERST#, COLD_RESET and DEVICE_RESET clear the device: registers, carrels, session, firmware, Ledger,
queues, mappings, groups, policies and injections are at their reset values; every byte of the tiers and local memories is undefined; the
fuses stay.

R94, R95, R517: when reset ends the boot ROM runs: RESET_CAUSE tells the cause, the ROM edition is published, the state is ROM_READY; a die
that fails its test gives ROM_FAILED with the die in START_DETAIL. -/
def Obligations.ResetsClearAndStartTheDevice : Prop :=
  (∀ (s : State) (c : Instr), resetsNow s c = true →
    ∃ t, exec c s = .next t
      ∧ t.bar0 = Bar0.reset t.bar0.resetCause ∧ (∀ v, c = .deviceReset v → t.bar0.resetCause = 3#3 ∧ t.cfg = s.cfg)
      ∧ ((∀ v, c ≠ .deviceReset v) → t.cfg = ConfigSpace.reset)
      ∧ t.carrels = carrelsReset ∧ t.session = Session.reset ∧ t.fw = Firmware.reset
      ∧ t.ledger = ⟨[], 0, 0, []⟩ ∧ t.queues = [] ∧ t.tr.leaves = [] ∧ t.tr.ready = false ∧ t.faults = [] ∧ t.policies = []
      ∧ t.coll.groups = [] ∧ t.update = ⟨[], [], []⟩ ∧ t.injections = [] ∧ t.routing = Routing.reset
      ∧ t.clusters = List.replicate (16 * s.fuses.part.c) Cluster.reset
      ∧ (∀ sp, ∃ tag, ∀ o, o < s.fuses.part.spaceBytes sp → t.byteAt sp o = Config.freeByte tag o)
      ∧ t.fuses = s.fuses ∧ t.out = s.out ∧ t.pending = s.pending)
  ∧ (∀ (s : State) (coldLast : Bool) (lanes : BitVec 16) (rate : Nat), s.pins.pgood = true → s.pins.tripLow = false →
    (s.pins.inReset = true ∨ s.pins.softReset = true) →
    (∃ t, exec (.resetEnd coldLast lanes rate none false) s = .next t ∧ t.fw.start = .romReady
        ∧ t.catalogue.stateCode = 2 ∧ t.catalogue.generation = s.catalogue.generation + 1#32
        ∧ t.pins = { s.pins with inReset := false, softReset := false, firstReset := false }
        ∧ t.bar0.resetCause = (if s.pins.inReset then (if s.pins.firstReset then 0#3 else if coldLast then 2#3 else 1#3)
            else s.bar0.resetCause)
        ∧ (s.pins.inReset = true → t.link = trainedLink lanes rate) ∧ t.mem = s.mem ∧ t.carrels = s.carrels)
    ∧ ∀ (k : DieKind) (n : Nat),
      ∃ t, exec (.resetEnd coldLast lanes rate (some (k, n)) false) s = .next t ∧ t.fw.start = .romFailed
        ∧ t.fw.detail = BitVec.ofNat 16 (k.code * 256 + n) ∧ t.catalogue = s.catalogue)

/-- R63 to R66, R518: LINK_CHANGE, L1_ENTRY, L1_EXIT; and a reference clock lost while PKG_PGOOD is low, which changes nothing, while with
PKG_PGOOD high the result is undefined. -/
def Obligations.LinkStateFollowsItsEvents : Prop :=
  (∀ (s : State) (lanes : BitVec 16) (rate : Nat), s.pins.pgood = true → s.pins.inReset = false →
    ∃ t, exec (.linkChange lanes rate) s = .next t ∧ t.link.lanes = (if rate = 0 then 0 else linkWidth lanes)
      ∧ (t.link.lanes ≠ 0 → t.link.rate = min rate 5) ∧ t.cfg = s.cfg ∧ t.mem = s.mem ∧ t.carrels = s.carrels)
  ∧ (∀ s : State, s.cfg.aspmL1 = true → s.link.lanes ≠ 0 →
      exec .l1Entry s = .next { s with link := { s.link with inL1 := true } })
  ∧ (∀ s : State, exec .l1Exit s = .next { s with link := { s.link with inL1 := false } })
  ∧ (∀ s : State, s.pins.pgood = false → exec .refclkLoss s = .next s)
  ∧ ∀ s : State, s.pins.pgood = true → exec .refclkLoss s = .fault .refclkLost

/-! ## BAR0 (R69 to R73, R84 to R87, R101 to R107, R118) -/

/-- R11, R14, R71, R72, R76, R118: each LOCK command sets its bit; a doorbell ring joins PEND; BAR2_BASE_LO keeps its writable bits and puts the staged
high bits in force; a heartbeat of an attached session restarts its age; an access takes the link out of L1 (R66), and nothing else changes. BAR2_FAULT is cleared
by writing 1, but a fault in the same cycle wins: it sets the flag again, with its address and direction, and is counted. -/
def Obligations.RegistersTakeWhatIsWritten : Prop :=
  (∀ s : State, s.registersServed = true →
     ∀ p ∈ [(Instr.lockPtBase, 1#5), (.lockFwRegion, 2#5), (.lockDebug, 4#5), (.lockFaultInj, 8#5), (.lockShelving, 16#5)],
       exec p.1 s = .next { s with bar0 := { s.bar0 with lock := s.bar0.lock ||| p.2 }, link := { s.link with inL1 := false } })
  ∧ (∀ (s : State) (v : Word32), s.registersServed = true →
     (∀ hi : Bool, exec (.doorbellRing hi v) s = .next
         { s with bar0 := { s.bar0 with pend := s.bar0.pend ||| (v.setWidth 64 <<< (if hi then 32 else 0)) }
                  link := { s.link with inL1 := false } })
     ∧ exec (.bar2BaseLo v) s = .next
         { s with bar0 := { s.bar0 with bar2Lo := v &&& 0xC0000001#32, bar2HiActive := s.bar0.bar2HiStaged }
                  link := { s.link with inL1 := false } }
     ∧ (s.session.state = .attached → exec (.heartbeat 0 v) s = .next
         { s with session := { s.session with ageMs := 0 }, carrels := s.carrels.modify 0 fun c => { c with heartbeat := v }
                  link := { s.link with inL1 := false } })
     ∧ (s.session.state ≠ .attached → exec (.heartbeat 0 v) s = .next
         { s with host := { s.host with hbIgnored := s.host.hbIgnored + 1#64 }, link := { s.link with inL1 := false } }))
  ∧ ∀ s : State, s.registersServed = true →
      exec (.bar2FaultClear none) s = .next { s with bar0 := { s.bar0 with bar2Fault := false }, link := { s.link with inL1 := false } }
      ∧ ∀ (va : Nat) (w : Bool), ∃ t, exec (.bar2FaultClear (some (va, w))) s = .next t ∧ t.bar0.bar2Fault = true
          ∧ t.bar0.bar2FaultAddr = BitVec.ofNat 57 va ∧ t.bar0.bar2FaultWrite = w
          ∧ t.bar0.bar2FaultCount = s.bar0.bar2FaultCount + 1#32 ∧ t.bar0.pend = s.bar0.pend ∧ t.bar0.lock = s.bar0.lock
          ∧ t.carrels = s.carrels ∧ t.mem = s.mem

/-- R107: CPL_HEAD is taken, and held completions go to the ring in order, numbered on from CPL_TAIL, as far as at most 64 are in it. -/
def Obligations.CplHeadReleasesHeldCompletions : Prop :=
  ∀ (s : State) (k : Nat) (v : Word32) (c : Carrel), s.registersServed = true → s.carrel? k = some c →
    ∃ t c', exec (.cplHead k v) s = .next t ∧ t.carrel? k = some c' ∧ c'.cplHead = v
      ∧ (∃ n, n ≤ c.hold.length ∧ c'.hold = c.hold.drop n ∧ c'.cplTail = c.cplTail + BitVec.ofNat 32 n
          ∧ (0 < n → (c'.cplTail - v).toNat ≤ 64) ∧ (c'.hold ≠ [] → 64 < (c'.cplTail + 1#32 - v).toNat))
      ∧ c'.request = c.request ∧ c'.response = c.response
      ∧ (∀ j, j ≠ k → t.carrel? j = s.carrel? j) ∧ t.mem = s.mem ∧ t.bar0.lock = s.bar0.lock ∧ t.bar0.pend = s.bar0.pend

/-- R13, R71, R84, R101, R104, R110: what the host writes to BAR0 is stored: the staged high word of the BAR2 base, an interrupt map entry, bytes of
a request area whose last request is answered, its reserved bytes apart; a write to a request area whose request is not answered is undefined. -/
def Obligations.HostWritesReachBar0 : Prop :=
  ∀ s : State, s.registersServed = true →
    (∀ v : Word32, exec (.registerWrite 0x200014 ⟨leBytes 4 v.toNat, plainTlp⟩) s = .next
        { s with bar0 := { s.bar0 with bar2HiStaged := v.setWidth 25 }, link := { s.link with inL1 := false } })
    ∧ (∀ (v : Word32) (k : Nat), k < 256 → exec (.registerWrite (0x201000 + 4 * k) ⟨leBytes 4 v.toNat, plainTlp⟩) s = .next
        { s with bar0 := { s.bar0 with intMap := s.bar0.intMap.modify k fun _ => ⟨v.setWidth 8, v.getLsbD 8⟩ }
                 link := { s.link with inL1 := false } })
    ∧ (∀ (k off : Nat) (data : List Byte) (c : Carrel), k < 64 → s.carrel? k = some c → 0x40 ≤ off → off + data.length ≤ 0x400 →
        data ≠ [] → c.reqSeq = c.rspSeq →
        ∃ t c', exec (.registerWrite (4096 * k + off) ⟨data, plainTlp⟩) s = .next t ∧ t.carrel? k = some c'
          ∧ (∀ i, c'.requestBytes i 1 =
              if off ≤ i ∧ i < off + data.length ∧ ¬ (0x48 ≤ i ∧ i < 0x50) then [data.getD (i - off) 0#8] else c.requestBytes i 1)
          ∧ c'.rspSeq = c.rspSeq ∧ c'.response = c.response ∧ c'.ring = c.ring
          ∧ (∀ j, j ≠ k → t.carrel? j = s.carrel? j) ∧ t.bar0 = s.bar0 ∧ t.mem = s.mem)
    ∧ ∀ (k off : Nat) (data : List Byte) (c : Carrel), k < 64 → s.carrel? k = some c → 0x40 ≤ off → off + data.length ≤ 0x400 →
        data ≠ [] → c.reqSeq ≠ c.rspSeq → exec (.registerWrite (4096 * k + off) ⟨data, plainTlp⟩) s = .fault .requestOverwritten

/-- R70, R86: a badly sized access, or one to a reserved offset, completes and is counted, and changes nothing else the device holds. A TLP that the link
replayed is taken like any other, and noted; one that fails its ECRC, while the port checks it, is discarded, and a poisoned write to BAR0 too, each with its AER
bit. -/
def Obligations.ArrivalsAndAccessesAreChecked : Prop :=
  (∀ (s : State) (off size : Nat) (write : Bool), s.registersServed = true → badAccesses off size ≠ 0 →
     ∃ t, exec (.bar0BadAccess off size write) s = .next t
       ∧ t = { s with host := { s.host with badAccess := s.host.badAccess + BitVec.ofNat 64 (badAccesses off size) }
                      link := { s.link with inL1 := false }, out := t.out }
       ∧ (write = true → t.out = s.out)
       ∧ (write = false → t.out = s.out ++ [.tlp (.completion (s.bar0Read off size) false) s.cfg.ecrcGenerate]))
  ∧ ∀ (s : State) (off : Nat) (data : List Byte), s.registersServed = true →
      (∀ es : List LinkError, (∀ e ∈ es, e ∈ s.cfg.aerCorrected) →
        exec (.registerWrite off ⟨data, ⟨es, false, false⟩⟩) s = exec (.registerWrite off ⟨data, plainTlp⟩) s)
      ∧ (∀ (es : List LinkError) (p : Bool), s.cfg.ecrcCheck = true →
        ∃ t, exec (.registerWrite off ⟨data, ⟨es, true, p⟩⟩) s = .next t ∧ .ecrc ∈ t.cfg.aer ∧ (∀ e ∈ es, e ∈ t.cfg.aerCorrected)
          ∧ t = { s with cfg := t.cfg, link := { s.link with inL1 := false } })
      ∧ ∀ (es : List LinkError) (b : Bool), (b && s.cfg.ecrcCheck) = false →
        ∃ t, exec (.registerWrite off ⟨data, ⟨es, b, true⟩⟩) s = .next t ∧ .poisonedTlp ∈ t.cfg.aer ∧ (∀ e ∈ es, e ∈ t.cfg.aerCorrected)
          ∧ t = { s with cfg := t.cfg, link := { s.link with inL1 := false } }

/-- R80, R85 to R87, R92: configuration writes set their fields: bus mastering, memory space, MSI-X, D-states, AER severities; an unmasked vector
that was pending is sent; an unexpected completion sets its AER bit. Where nothing waits to go out, mastering does no more than this. -/
def Obligations.ConfigurationTakesEffect : Prop :=
  ∀ s : State, s.linkUp = true →
    (NothingHeld s = true → ∃ t, exec .busMasterEnable s = .next t ∧ t.cfg = { s.cfg with busMaster := true }
        ∧ t.bar0.lock = s.bar0.lock ∧ t.session = s.session ∧ t.mem = s.mem ∧ t.clusters = s.clusters)
    ∧ (∀ on : Bool, exec (.configurationWrite (.memorySpace on)) s
        = .next { s with cfg := { s.cfg with memorySpace := on }, link := { s.link with inL1 := false } })
    ∧ (∀ on : Bool, NothingHeld s = true → ∃ t, exec (.configurationWrite (.busMaster on)) s = .next t
        ∧ t.cfg = { s.cfg with busMaster := on } ∧ t.mem = s.mem ∧ t.clusters = s.clusters)
    ∧ (∀ (e : AerError) (fatal : Bool), ∃ t, exec (.configurationWrite (.aerSeverity e fatal)) s = .next t
        ∧ (∀ x, x ∈ t.cfg.aerFatal ↔ if x = e then fatal = true else x ∈ s.cfg.aerFatal) ∧ t.cfg.aer = s.cfg.aer)
    ∧ (∀ code : Nat, exec (.configurationWrite (.maxReadRequest code)) s
        = .next { s with cfg := { s.cfg with maxReadRequest := code }, link := { s.link with inL1 := false } })
    ∧ (∀ e : AerError, exec (.configurationWrite (.aerClear e)) s
        = .next { s with cfg := { s.cfg with aer := s.cfg.aer.filter fun x => x != e }, link := { s.link with inL1 := false } })
    ∧ exec .d3hotEntry s = .next { s with cfg := { s.cfg with d3hot := true }, link := { s.link with inL1 := false } }
    ∧ (NothingHeld s = true → ∃ t, exec .d0Entry s = .next t ∧ t.cfg = { s.cfg with d3hot := false }
        ∧ t.bar0.lock = s.bar0.lock ∧ t.session = s.session ∧ t.mem = s.mem ∧ t.clusters = s.clusters)
    ∧ (∃ t, exec .unexpectedCompletion s = .next t ∧ .unexpectedCompletion ∈ t.cfg.aer ∧ t.mem = s.mem ∧ t.bar0 = s.bar0)
    ∧ ∀ (v : Nat) (e : MsixEntry), s.registersServed = true → s.bar0.msix[v]? = some e → v < 256 →
        ∃ t, exec (.msixUnmask (.vector v)) s = .next t ∧ t.bar0.msix[v]? = some { e with masked := false }
          ∧ (s.bar0.pba.getLsbD v = true → s.canMaster = true → s.cfg.msixEnable = true → s.cfg.functionMask = false →
              t.out = s.out ++ [.tlp (.msix v e.addr e.data) s.cfg.ecrcGenerate] ∧ t.bar0.pba.getLsbD v = false)
          ∧ t.mem = s.mem ∧ t.cfg = s.cfg ∧ t.bar0.lock = s.bar0.lock

/-! ## The BAR2 window (R74 to R79) and reads of host memory (R81 to R83) -/

/-- R74, R77: a read of the open window answers the bytes of device memory that its address maps to, and leaves all memory as it is; an address with no
leaf answers Completer Abort and is recorded in BAR2_FAULT.

R74, R77: a write through the open window stores its bytes where its address maps to, and nothing else; a poisoned write stores nothing. -/
def Obligations.Bar2AccessesMeetTheMemory : Prop :=
  (∀ (s : State) (off n : Nat), s.registersServed = true → s.bar2Open = true → Clean s →
    (∀ (sp : Space) (o : Nat), Lands s .host .read (s.bar2Address off) n sp o →
      ∃ t, exec (.bar2Read off ⟨n, plainTlp⟩) s = .next t
        ∧ t.out = s.out ++ [.tlp (.completion ((List.range n).map fun i => s.byteAt sp (o + i)) false) s.cfg.ecrcGenerate]
        ∧ SameMemory s t ∧ t.bar0 = s.bar0 ∧ t.cfg = s.cfg ∧ t.carrels = s.carrels)
    ∧ ∀ a, s.translateSpan .host .read (s.bar2Address off) n = .error (1, a) → s.bar0.bar2Fault = false →
      ∃ t, exec (.bar2Read off ⟨n, plainTlp⟩) s = .next t ∧ t.bar0.bar2Fault = true ∧ .completerAbort ∈ t.cfg.aer
        ∧ t.bar0.bar2FaultAddr = BitVec.ofNat 57 (s.bar2Address off) ∧ t.bar0.bar2FaultWrite = false
        ∧ t.bar0.bar2FaultCount = s.bar0.bar2FaultCount + 1#32 ∧ t.out.getLast? = some (.tlp .completerAbort s.cfg.ecrcGenerate) ∧ SameMemory s t)
  ∧ (∀ (s : State) (off : Nat) (data : List Byte), s.registersServed = true → s.bar2Open = true → Clean s →
    (∀ (sp : Space) (o : Nat), Lands s .host .write (s.bar2Address off) data.length sp o →
      ∃ t, exec (.bar2Write off data plainTlp) s = .next t ∧ Stored s t sp o data ∧ t.bar0 = s.bar0 ∧ t.cfg = s.cfg
        ∧ t.carrels = s.carrels ∧ t.out = s.out)
    ∧ ∃ t, exec (.bar2Write off data ⟨[], false, true⟩) s = .next t ∧ SameMemory s t ∧ .poisonedTlp ∈ t.cfg.aer ∧ t.bar0 = s.bar0)

/-- R81 to R83, R86: a read of host memory that completes reaches its waiting thread: the register takes the value, zero-extended, and the thread
goes on; a DMA item whose read fails, times out or comes back poisoned ends HOST_DMA_ERROR, and a time-out sets its AER bit. -/
def Obligations.HostCompletionsReachTheirReaders : Prop :=
  ∀ (s : State) (id : Nat) (r : HostRead), s.linkUp = true → (s.hostReads.find? fun x => x.id == id) = some r → NothingHeld s = true →
    (∀ (tid : ThreadId) (th : Thread) (rd w : Nat) (bytes : List Byte), r.owner = .thread tid → s.thread? tid = some th → rd < 32 →
      th.state = .waiting → th.wait = .remote rd w id → w ≤ 8 →
      ∃ t th', exec (.hostReadCompletion id ⟨.data bytes, plainTlp⟩) s = .next t ∧ t.thread? tid = some th' ∧ th'.state = .running
        ∧ th'.reg rd = BitVec.ofNat 64 (leNat (bytes.take w)) ∧ th'.pc = th.pc + 4#64
        ∧ (∀ q, q ≠ rd → th'.reg q = th.reg q) ∧ (∀ x ∈ t.hostReads, x.id ≠ id) ∧ SameMemory s t ∧ t.bar0 = s.bar0)
    ∧ ∀ (x e : Nat) (j : DmaJob), r.owner = .dma x e → s.job? x e = some j → j.waiting = some id →
      (∀ err, ∃ t j', exec (.hostReadCompletion id ⟨.error err, plainTlp⟩) s = .next t ∧ t.job? x e = some j'
          ∧ j'.ended = some ⟨stHostDmaError, 0⟩ ∧ j'.bytesDone = j.bytesDone ∧ SameMemory s t)
      ∧ (∀ what, ∃ t j', exec (.hostReadCompletion id ⟨what, ⟨[], false, true⟩⟩) s = .next t ∧ t.job? x e = some j'
          ∧ j'.ended = some ⟨stHostDmaError, 0⟩ ∧ j'.bytesDone = j.bytesDone ∧ SameMemory s t)
      ∧ ∃ t j', exec (.hostCompletionTimeout id) s = .next t ∧ t.job? x e = some j' ∧ j'.ended = some ⟨stHostDmaError, 0⟩
          ∧ j'.bytesDone = j.bytesDone ∧ .completionTimeout ∈ t.cfg.aer ∧ SameMemory s t

/-! ## Threads (R341 to R347, R362 to R366) -/

/-- R346: integer, logical, shift, compare, LF32 and branch instructions change the thread's registers and program counter alone; CYC gives a register some
value. The list of operations is the model's (log 7). -/
def Obligations.ScalarInstructionsChangeOnlyTheirThread : Prop :=
  ∀ (s s' : State) (tid : ThreadId) (th : Thread), Fetched s tid th s' →
    (∀ (op : AluOp) (rd ra rb : Nat), rd < 32 → th.awaits [rd, ra, rb] = none →
      ∃ t th', exec (.scalarInstruction tid (.alu op rd ra rb)) s = .next t ∧ t.thread? tid = some th'
        ∧ th'.reg rd = aluValue op (th.reg ra) (th.reg rb) ∧ (∀ q, q ≠ rd → th'.reg q = th.reg q) ∧ th'.pc = th.pc + 4#64
        ∧ th'.state = .running ∧ ThreadFrame s t tid ∧ SameMemory s t)
    ∧ (∀ (rd : Nat) (v : Word64), rd < 32 → th.awaits [rd] = none →
      ∃ t th', exec (.scalarInstruction tid (.const rd v)) s = .next t ∧ t.thread? tid = some th' ∧ th'.reg rd = v
        ∧ (∀ q, q ≠ rd → th'.reg q = th.reg q) ∧ th'.pc = th.pc + 4#64 ∧ ThreadFrame s t tid ∧ SameMemory s t)
    ∧ (∀ (op : LfOp) (rd ra rb : Nat), rd < 32 → th.awaits [rd, ra, rb] = none →
      ∃ t th', exec (.scalarInstruction tid (.lf op rd ra rb)) s = .next t ∧ t.thread? tid = some th'
        ∧ th'.reg rd = lfValue op (th.reg ra) (th.reg rb) ∧ (∀ q, q ≠ rd → th'.reg q = th.reg q) ∧ th'.pc = th.pc + 4#64
        ∧ ThreadFrame s t tid ∧ SameMemory s t)
    ∧ (∀ (c : BranchCond) (ra rb : Nat) (target : Word64), th.awaits [ra, rb] = none →
      ∃ t th', exec (.scalarInstruction tid (.branch c ra rb target)) s = .next t ∧ t.thread? tid = some th' ∧ th'.regs = th.regs
        ∧ th'.pc = (if branchTaken c (th.reg ra) (th.reg rb) then target else th.pc + 4#64) ∧ ThreadFrame s t tid ∧ SameMemory s t)
    ∧ ∀ rd : Nat, rd < 32 → th.awaits [rd] = none →
      ∃ t th', exec (.cyc tid rd) s = .next t ∧ t.thread? tid = some th' ∧ (∀ q, q ≠ rd → th'.reg q = th.reg q)
        ∧ th'.pc = th.pc + 4#64 ∧ ThreadFrame s t tid ∧ SameMemory s t

/-- R342, R346: a load of an aligned address in the device's memory makes the thread wait for its data; when the data returns, the register holds the bytes
read, zero-extended, and the thread goes on. -/
def Obligations.LoadsReturnMemoryZeroExtended : Prop :=
  (∀ (s s' : State) (tid : ThreadId) (th : Thread) (rd ra : Nat) (sp : Space) (o : Nat), Fetched s tid th s' → th.awaits [rd, ra] = none →
    ∀ p ∈ [(Instr.ldB tid rd ra, 1), (.ldH tid rd ra, 2), (.ldW tid rd ra, 4), (.ldD tid rd ra, 8)],
      (th.reg ra).toNat % p.2 = 0 → Lands s .device .read (th.reg ra).toNat p.2 sp o →
      ∃ t, exec p.1 s = .next t
        ∧ t.thread? tid = some { th with state := .waiting, wait := .load rd p.2 (th.reg ra) } ∧ ThreadFrame s t tid ∧ SameMemory s t)
  ∧ ∀ (s : State) (tid : ThreadId) (th : Thread) (rd w : Nat) (va : Word64) (sp : Space) (o : Nat), s.thread? tid = some th →
      th.state = .waiting → th.wait = .load rd w va → rd < 32 → w ≤ 8 → Clean s → Lands s .device .read va.toNat w sp o →
      ∃ t th', exec (.loadDataReturn tid) s = .next t ∧ t.thread? tid = some th' ∧ th'.state = .running ∧ th'.pc = th.pc + 4#64
        ∧ th'.reg rd = BitVec.ofNat 64 (leNat ((List.range w).map fun i => s.byteAt sp (o + i)))
        ∧ (∀ q, q ≠ rd → th'.reg q = th.reg q) ∧ ThreadFrame s t tid ∧ SameMemory s t

/-- R346: a store of an aligned address writes the register's low bytes where the address maps to, and no other byte. -/
def Obligations.StoresWriteTheirBytesOnly : Prop :=
  ∀ (s s' : State) (tid : ThreadId) (th : Thread) (rs ra : Nat) (sp : Space) (o : Nat), Fetched s tid th s' → Clean s →
    th.awaits [rs, ra] = none →
    ∀ p ∈ [(Instr.stB tid rs ra, 1), (.stH tid rs ra, 2), (.stW tid rs ra, 4), (.stD tid rs ra, 8)],
      (th.reg ra).toNat % p.2 = 0 → Lands s .device .write (th.reg ra).toNat p.2 sp o →
      ∃ t, exec p.1 s = .next t ∧ Stored s t sp o (leBytes p.2 (th.reg rs).toNat)
        ∧ t.thread? tid = some { th with pc := th.pc + 4#64 } ∧ ThreadFrame s t tid

/-- R346, R365: an atomic of 8 aligned bytes returns the old value and stores the new one: ADD the sum, SWAP the operand, CAS the second operand where the
first matches, MAX the larger (whether signed is open, log 24). -/
def Obligations.AtomicsReturnTheOldValue : Prop :=
  ∀ (s s' : State) (tid : ThreadId) (th : Thread) (rd ra rb rc : Nat) (sp : Space) (o : Nat) (old : Word64), Fetched s tid th s' → Clean s →
    rd < 32 → th.awaits [rd, ra, rb, rc] = none → (th.reg ra).toNat % 8 = 0 → Lands s .device .atomic (th.reg ra).toNat 8 sp o →
    old = BitVec.ofNat 64 (leNat ((List.range 8).map fun i => s.byteAt sp (o + i))) →
    ∀ p ∈ [(Instr.amoAdd tid rd ra rb, fun v => v = old + th.reg rb), (.amoSwap tid rd ra rb, fun v => v = th.reg rb),
        (.amoCas tid rd ra rb rc, fun v => v = if old = th.reg rb then th.reg rc else old),
        (.amoMax tid rd ra rb, fun v => v = (if old.slt (th.reg rb) then th.reg rb else old)
          ∨ v = (if old.ult (th.reg rb) then th.reg rb else old))],
      ∃ t th' v, exec p.1 s = .next t ∧ p.2 v ∧ Stored s t sp o (leBytes 8 v.toNat) ∧ t.thread? tid = some th' ∧ th'.reg rd = old
        ∧ (∀ q, q ≠ rd → th'.reg q = th.reg q) ∧ th'.pc = th.pc + 4#64 ∧ ThreadFrame s t tid

/-- R227, R228, R346, R369: an ISSUE puts the descriptor at the address into the queue of the cluster's matrix or vector engine, or of the routing engine
of the layer's HOME_XDIE, and the thread goes on; a full queue makes it wait, until ISSUE_ACCEPTED does the same with the descriptor as it then stands. -/
def Obligations.IssuesReachTheirEngine : Prop :=
  (∀ (s s' s'' : State) (tid : ThreadId) (th : Thread) (ra : Nat) (d : List Byte), Fetched s tid th s' → th.awaits [ra] = none →
    (th.reg ra).toNat % 64 = 0 → s'.vread (threadReader tid) .device .read (th.reg ra).toNat 192 = (.bytes d, s'') →
    ∀ p ∈ [(Instr.issueM tid ra, EngineRef.matrix tid.at_), (.issueV tid ra, .vector tid.at_), (.issueR tid ra, .router (s.homeXdie d))],
      (p.1 = .issueV tid ra → th.awaits (scalarSources d) = none) →
      (s.engineFull d p.2 = false →
        ∃ t th' w, exec p.1 s = .next t ∧ t.thread? tid = some th' ∧ w ∈ t.engineQueue p.2 ∧ w.desc = d ∧ w.issuer = s.issuerOf tid th
          ∧ w.urgent = th.urgent ∧ w.uid ∈ th'.issued ∧ th'.regs = th.regs ∧ th'.pc = th.pc + 4#64 ∧ th'.state = .running
          ∧ SameMemory s t ∧ ThreadFrame s t tid)
      ∧ (s.engineFull d p.2 = true →
        ∃ t th', exec p.1 s = .next t ∧ t.thread? tid = some th' ∧ th'.state = .waiting ∧ (∃ k, th'.wait = .issue k ra) ∧ th'.pc = th.pc
          ∧ th'.regs = th.regs ∧ th'.issued = th.issued ∧ t.engineQueue p.2 = s.engineQueue p.2 ∧ SameMemory s t))
  ∧ ∀ (s s' : State) (tid : ThreadId) (th : Thread) (k ra : Nat) (d : List Byte), s.thread? tid = some th → th.state = .waiting →
      th.wait = .issue k ra → (th.reg ra).toNat % 64 = 0 → s.vread (threadReader tid) .device .read (th.reg ra).toNat 192 = (.bytes d, s') →
      (k = 1 → th.awaits (scalarSources d) = none) → s.engineFull d (s.issueTarget tid k d) = false →
      ∃ t th' w, exec (.issueAccepted tid) s = .next t ∧ t.thread? tid = some th' ∧ w ∈ t.engineQueue (s.issueTarget tid k d)
        ∧ w.desc = d ∧ w.issuer = s.issuerOf tid th ∧ w.uid ∈ th'.issued ∧ th'.regs = th.regs ∧ th'.state = .running
        ∧ th'.pc = th.pc + 4#64 ∧ SameMemory s t ∧ ThreadFrame s t tid

/-- R346: FENCE.Q goes on at once; FENCE.C, FENCE.D and FENCE.S go on once every earlier issue has ended (FENCE.S: and every write outside the device is
done), and wait until then. -/
def Obligations.FencesWaitForEarlierWork : Prop :=
  (∀ (s s' : State) (tid : ThreadId) (th : Thread), Fetched s tid th s' →
    ∀ p ∈ [(Instr.fenceQ tid, 0), (.fenceC tid, 1), (.fenceD tid, 2), (.fenceS tid, 3)],
      ((p.2 = 0 ∨ (th.issued = [] ∧ (p.2 = 3 → th.writes = []))) →
        ∃ t, exec p.1 s = .next t ∧ t.thread? tid = some { th with pc := th.pc + 4#64 } ∧ ThreadFrame s t tid ∧ SameMemory s t)
      ∧ (p.2 ≠ 0 → th.issued ≠ [] →
        ∃ t, exec p.1 s = .next t ∧ t.thread? tid = some { th with state := .waiting, wait := .fence p.2 th.issued }
          ∧ ThreadFrame s t tid ∧ SameMemory s t))
  ∧ ∀ (s : State) (tid : ThreadId) (th : Thread) (kind : Nat) (before : List Nat), s.thread? tid = some th → th.state = .waiting →
      th.wait = .fence kind before → (∀ u ∈ before, u ∉ th.issued) → (kind = 3 → th.writes = []) →
      ∃ t, exec (.fenceComplete tid) s = .next t
        ∧ t.thread? tid = some { th with pc := th.pc + 4#64, state := .running, wait := .none } ∧ ThreadFrame s t tid ∧ SameMemory s t

/-- R346: WAIT sleeps while the watched word holds the register's value, or for a number of cycles, or for the shorter of both; WAIT_WAKE lets the thread
go on. -/
def Obligations.WaitSleepsUntilItsWake : Prop :=
  (∀ (s s' : State) (tid : ThreadId) (th : Thread), Fetched s tid th s' → Clean s →
    (∀ n, 0 < n → ∃ t, exec (.wait tid (.cycles n)) s = .next t
      ∧ t.thread? tid = some { th with state := .waiting, wait := .cycles n } ∧ ThreadFrame s t tid ∧ SameMemory s t)
    ∧ ∀ (ra rb : Nat) (c : Option Nat) (sp : Space) (o : Nat), th.awaits [ra, rb] = none → (th.reg ra).toNat % 8 = 0 →
      Lands s .device .read (th.reg ra).toNat 8 sp o →
      ∃ t th', exec (.wait tid (.word ra rb c)) s = .next t ∧ t.thread? tid = some th' ∧ th'.regs = th.regs
        ∧ ThreadFrame s t tid ∧ SameMemory s t
        ∧ (BitVec.ofNat 64 (leNat ((List.range 8).map fun i => s.byteAt sp (o + i))) = th.reg rb →
            th'.state = .waiting ∧ th'.pc = th.pc ∧ th'.wait = .word (th.reg ra) (th.reg rb) c none)
        ∧ (BitVec.ofNat 64 (leNat ((List.range 8).map fun i => s.byteAt sp (o + i))) ≠ th.reg rb →
            th'.state = .running ∧ th'.pc = th.pc + 4#64))
  ∧ ∀ (s : State) (tid : ThreadId) (th : Thread) (n passed : Nat), s.thread? tid = some th → th.state = .waiting →
      (th.wait = .cycles n ∨ ∃ va v r, th.wait = .word va v (some n) r) → n ≤ passed →
      ∃ t, exec (.waitWake tid passed) s = .next t
        ∧ t.thread? tid = some { th with pc := th.pc + 4#64, state := .running, wait := .none } ∧ ThreadFrame s t tid ∧ SameMemory s t

/-- R346, R347, R364: END, an instruction the core does not recognise, and a misaligned access end the thread: it is IDLE, and its record holds the status,
the detail (bits [16:2] of the program counter), DONE and the exit value; while remote stores of the thread are not acknowledged, it waits for them. -/
def Obligations.ThreadsEndWithTheirRecord : Prop :=
  ∀ (s s' : State) (tid : ThreadId) (th : Thread) (sp : Space) (o rd ra : Nat), Fetched s tid th s' → Clean s → th.awaits [1, rd, ra] = none →
    th.statusVa ≠ 0 → Lands s .device .write th.statusVa 32 sp o → (th.reg ra).toNat % 2 = 1 →
    ∀ p ∈ [(Instr.endThread tid, 0x0000, 0, th.reg 1), (.illegalInstruction tid, 0x0120, field th.pc.toNat 16 2, 0#64),
        (.ldH tid rd ra, 0x0121, field th.pc.toNat 16 2, 0#64), (.stD tid rd ra, 0x0121, field th.pc.toNat 16 2, 0#64)],
      (th.writes ≠ [] → ∃ t th', exec p.1 s = .next t ∧ t.thread? tid = some th' ∧ th'.state = .waiting
        ∧ th'.ending = some (p.2.1, p.2.2.1, p.2.2.2) ∧ th'.writes = th.writes ∧ SameMemory s t ∧ ThreadFrame s t tid)
      ∧ (th.writes = [] → ∃ t th' cycles, exec p.1 s = .next t ∧ t.thread? tid = some th' ∧ th'.state = .idle ∧ th'.issued = [] ∧ th'.regs = th.regs
        ∧ Stored s t sp o (threadRecord p.2.1 p.2.2.1 p.2.2.2 cycles)
        ∧ (∀ u, u ≠ tid → t.thread? u = s.thread? u) ∧ t.tr = s.tr ∧ t.session = s.session ∧ t.fw = s.fw)

/-- R344, R345: a launch starts the named idle thread, or the lowest idle one, at ENTRY: s1 to s8 hold the arguments, s30 the base of the local window, s31
the thread's identity, every other register 0. -/
def Obligations.LaunchStartsAThread : Prop :=
  ∀ (s : State) (num n : Nat) (q : Queue) (it : Item) (d : List Byte) (c : Cluster), s.offered num = some (q, it) → it.work = .desc d →
    descKind d = 5 → launchBad s.fuses.part d = none → s.cluster? (descCluster d) = some c →
    launchThread c (field (get32 d 0) 8 4) = some n →
    ∃ t th', exec (.threadLaunch num) s = .next t ∧ t.thread? ⟨descCluster d, n⟩ = some th' ∧ th'.state = .running
      ∧ th'.pc = BitVec.ofNat 64 (descAddr d 8) ∧ th'.queue = num ∧ th'.uid = it.uid ∧ th'.urgent = q.urgent
      ∧ th'.statusVa = descAddr d 0x88 ∧ th'.issued = [] ∧ th'.wait = .none
      ∧ (∀ r, r < 32 → th'.reg r = if 1 ≤ r ∧ r ≤ 8 then BitVec.ofNat 64 (get64 d (8 + 8 * r))
          else if r = 30 then BitVec.ofNat 64 (localBase + (descCluster d).index * 2 ^ 25)
          else if r = 31 then BitVec.ofNat 64 ((descCluster d).cdie * 256 + (descCluster d).cluster * 16 + n) else 0#64)
      ∧ (∀ u, u ≠ ⟨descCluster d, n⟩ → t.thread? u = s.thread? u) ∧ SameMemory s t ∧ t.bar0 = s.bar0 ∧ t.carrels = s.carrels

/-! ## Power, thermal control, clocks (R485 to R510, R519 to R523) -/

/-- R492, R494, R495, R520: each sample of the input is kept; POWER and INPUT_VOLTAGE are declared by it; N of each C-die is 14 under a cause that forces it,
one more under the power rule at every tenth sample, and otherwise as it was; THERM_ALERT_n is low while any cause is declared. R516, R521: in a reset and
after a trip the sample is kept, and nothing else happens. -/
def Obligations.BellowsActsOnEachSample : Prop :=
  (∀ (s : State) (a50 a1 vin : Nat) (out10 : Bool), s.pins.pgood = true → s.pins.inReset = true ∨ s.pins.tripLow = true →
    ∃ t, exec (.bellowsSample a50 a1 vin out10) s = .next t ∧ t.power.avg1ms = a1 ∧ t.power.vinMv = vin
      ∧ t = { s with power := t.power, freeCtr := t.freeCtr } ∧ t.power.dies = s.power.dies ∧ t.power.declared = s.power.declared)
  ∧ ∀ (s : State) (a50 a1 vin : Nat) (out10 : Bool), s.pins.pgood = true → s.pins.inReset = false → s.pins.tripLow = false →
    ∃ t, exec (.bellowsSample a50 a1 vin out10) s = .next t
      ∧ t.power.avg50us = a50 ∧ t.power.avg1ms = a1 ∧ t.power.vinMv = vin
      ∧ (Cause.power ∈ t.power.declared ↔ Cause.power ∈ s.power.declared ∨ 12 * s.fuses.part.pmax < 10 * a50)
      ∧ (Cause.inputVoltage ∈ t.power.declared
          ↔ Cause.inputVoltage ∈ s.power.declared ∨ (out10 = true ∧ (vin < 43000 ∨ 59000 < vin)))
      ∧ (∀ (k : Nat) (d : DiePower), s.die? .c k = some d → ∃ d', t.die? .c k = some d' ∧ d'.level = d.level ∧ d'.tempC = d.tempC
          ∧ d'.n = (if t.power.declared.any (forces s.fuses.part k) then 14
              else if 97 * s.fuses.part.pmax < 100 * a1 ∧ (s.power.samples + 1) % 10 = 0 then min 14 (d.n + 1) else d.n))
      ∧ (t.pins.alertLow = true ↔ t.power.declared ≠ [])
      ∧ t.power.capW = s.power.capW ∧ SameMemory s t ∧ t.carrels = s.carrels ∧ t.clusters = s.clusters

/-- R494, R495, R497, R519: a sensor reading is kept; from 105 °C N of a C-die rises, from 110 °C (a stack: 105 °C) a thermal emergency is declared, and at
125 °C (115 °C) the package trips: THERMTRIP_n low, the site in TRIP_SITE, no session, no work. -/
def Obligations.SensorReadingsDeclareAndTrip : Prop :=
  ∀ s : State, s.pins.pgood = true → s.pins.inReset = false → s.pins.tripLow = false →
    (∀ (kind : DieKind) (die : Nat) (d : DiePower) (tc : Int), s.fuses.part.hasDie kind die = true → s.die? kind die = some d →
      (tc < 125 → ∃ t d', exec (.dieSensorRead kind die tc) s = .next t ∧ t.die? kind die = some d' ∧ d'.tempC = tc
          ∧ d'.peakC = max d.peakC tc ∧ d'.level = d.level
          ∧ (Cause.thermalDie kind die ∈ t.power.declared ↔ Cause.thermalDie kind die ∈ s.power.declared ∨ 110 ≤ tc)
          ∧ (kind = .c → d'.n = (if t.power.declared.any (forces s.fuses.part die) then 14
              else if 105 ≤ tc then min 14 (d.n + 1) else d.n))
          ∧ t.pins.tripLow = false ∧ SameMemory s t ∧ t.carrels = s.carrels)
      ∧ (125 ≤ tc → ∃ t, exec (.dieSensorRead kind die tc) s = .next t ∧ t.pins.tripLow = true ∧ t.power.tripped = true
          ∧ t.power.tripSite = BitVec.ofNat 16 (die + kind.code * 256) ∧ t.session = Session.reset ∧ t.queues = []))
    ∧ ∀ (tier : Space) (k : Nat) (x : Stack) (tc : Int), s.stack? tier k = some x →
      (tc < 115 → ∃ t x', exec (.stackSensorRead tier k tc) s = .next t ∧ t.stack? tier k = some x' ∧ x'.tempC = tc
          ∧ (Cause.thermalStack tier k ∈ t.power.declared ↔ Cause.thermalStack tier k ∈ s.power.declared ∨ 105 ≤ tc)
          ∧ t.pins.tripLow = false ∧ SameMemory s t ∧ t.carrels = s.carrels)
      ∧ (115 ≤ tc → ∃ t, exec (.stackSensorRead tier k tc) s = .next t ∧ t.pins.tripLow = true ∧ t.power.tripped = true
          ∧ t.power.tripSite = BitVec.ofNat 16 (k + 768) ∧ t.session = Session.reset ∧ t.queues = [])

/-- R494 to R496, R520: a declared cause whose release condition has held is cleared, alone, with a Ledger record once firmware runs; N falls by one where
neither a rule nor a cause holds it up.

R500 to R502, R508: an idle domain is gated and keeps its architectural state, a gated one (but a port's) is woken and the wake counted; firmware keeps an
offset and a rate for every counter that a timestamp may name. -/
def Obligations.EmergenciesClearAndDomainsWake : Prop :=
  ((∀ (s : State) (c : Cause) (ms : Nat), c ∈ s.power.declared → s.released c = true → s.pins.tripLow = false →
    ∃ t, exec (.emergencyClear c ms) s = .next t ∧ t.power.declared = (s.power.declared.filter fun x => x != c)
      ∧ (t.pins.alertLow = true ↔ t.power.declared ≠ [])
      ∧ t.ledger.next = (if s.fwRuns ∧ s.ledger.next ≠ 0 then s.ledger.next + 1 else s.ledger.next)
      ∧ SameMemory s t ∧ t.carrels = s.carrels ∧ t.clusters = s.clusters)
  ∧ ∀ (s : State) (k : Nat) (d : DiePower), s.die? .c k = some d → ¬ 97 * s.fuses.part.pmax < 100 * s.power.avg1ms →
      s.power.declared.any (forces s.fuses.part k) = false → d.tempC < 105 →
      ∃ t, exec (.skipStepDown k) s = .next t ∧ t.die? .c k = some { d with n := d.n - 1 } ∧ t.power.declared = s.power.declared
        ∧ SameMemory s t ∧ t.carrels = s.carrels ∧ t.bar0 = s.bar0)
  ∧ ((∀ (s : State) (d : Domain), s.fwRuns = true → s.gateable d = true → d ∉ s.power.gated →
    ∃ t, exec (.domainGate d) s = .next t ∧ d ∈ t.power.gated ∧ t.clusters = s.clusters ∧ t.conv = s.conv ∧ t.update = s.update
      ∧ t.routers = s.routers ∧ t.tables = s.tables ∧ SameMemory s t ∧ t.bar0 = s.bar0 ∧ t.carrels = s.carrels)
  ∧ (∀ (s : State) (d : Domain) (x : DiePower), d ∈ s.power.gated → (∀ p, d ≠ .windwayPort p) →
      s.die? (domainDie d).1 (domainDie d).2 = some x →
      ∃ t, exec (.domainWake d) s = .next t ∧ d ∉ t.power.gated
        ∧ t.die? (domainDie d).1 (domainDie d).2 = some { x with wakes := x.wakes + 1#64 }
        ∧ t.clusters = s.clusters ∧ SameMemory s t ∧ t.bar0 = s.bar0 ∧ t.carrels = s.carrels)
  ∧ ∀ s : State, s.fwRuns = true →
      ∃ t, exec .timestampRecorrelate s = .next t
        ∧ (t.power.clocks.map fun c => (c.kind, c.die, c.unit)) = s.fuses.part.timeCounters
        ∧ t = { s with power := { s.power with clocks := t.power.clocks }, freeCtr := t.freeCtr })

/-- R488: the firmware loop: over the cap every C-die at the highest level in use steps down; a C-die over the target steps down; after ten good evaluations
in a row a C-die steps up; no level passes 5 or 0. -/
def Obligations.PowerLoopMovesTheLevels : Prop :=
  ∀ (s : State) (avg k : Nat) (d : DiePower), s.fwRuns = true → s.fw.activation ≠ .handing → s.die? .c k = some d → d.level ≤ 5 →
    (∀ x ∈ s.power.dies, x.kind ≠ .c → x.tempC + 3 ≤ s.power.targetC) →
    ∃ t d', exec (.powerLoopTick avg) s = .next t ∧ t.power.avg10ms = avg ∧ t.die? .c k = some d' ∧ d'.n = d.n ∧ d'.level ≤ 5
      ∧ (s.power.capW < avg → d.tempC ≤ s.power.targetC → (∀ x ∈ s.power.dies, x.kind = .c → d.level ≤ x.level) →
          d'.level = min 5 (d.level + 1) ∧ d'.fwPower = true)
      ∧ (avg ≤ s.power.capW → (s.power.targetC : Int) < d.tempC → d'.level = min 5 (d.level + 1) ∧ d'.fwThermal = true)
      ∧ (100 * avg < 95 * s.power.capW → d.tempC + 3 ≤ s.power.targetC →
          d'.level = (if d.goodEvals + 1 < 10 then d.level else d.level - 1)
            ∧ d'.goodEvals = if d.goodEvals + 1 < 10 then d.goodEvals + 1 else 0)
      ∧ SameMemory s t ∧ t.carrels = s.carrels ∧ t.bar0 = s.bar0

/-- R522, R523: a read of the SMBus target with a right PEC returns the bytes of its command and a PEC over the whole transaction; with a wrong one it is
NACKed. Nothing else changes. -/
def Obligations.SmbusReadsReturnTheirBytes : Prop :=
  ∀ s : State, s.pins.pgood = true →
    ∀ p ∈ [(Instr.smbStatus, 0x01, leBytes 2 (s.fw.start.code + 16 * s.emergency + 256 * bit s.power.tripped + 512 * bit (s.throttle != 0))),
        (.smbPowerW, 0x02, leBytes 2 s.power.avg1ms), (.smbVinMv, 0x03, leBytes 2 s.power.vinMv),
        (.smbTempMaxC, 0x04, leBytes 1 s.tempMax), (.smbPmaxW, 0x05, leBytes 2 s.fuses.part.pmax),
        (.smbTripSite, 0x06, leBytes 2 s.power.tripSite.toNat), (.smbSerial, 0x07, 12#8 :: leBytes 12 s.fuses.serial.toNat)],
      exec (p.1 true) s = .next { s with out := s.out ++
          [.smbus (p.2.2 ++ [BitVec.ofNat 8 (pec ([0x94#8, BitVec.ofNat 8 p.2.1, 0x95#8] ++ p.2.2))])] }
      ∧ exec (p.1 false) s = .next { s with out := s.out ++ [.smbusNack] }

/-! ## ECC, scrubs, hot stacks, Spine links (R387 to R396, R545) -/

/-- R395, R545: in each window firmware takes a stack's burst count, and counts a hot window; after 10,000 hot windows in a row the stack is hot; a replayed
flit and a retired lane are counted on their link, and the lane is out of service. -/
def Obligations.HotStacksAndLinksAreCounted : Prop :=
  (∀ (s : State) (tier : Space) (holds : List Word64) (tie : Nat), s.fwRuns = true →
    ∃ t, exec (.hotStackWindow tier holds tie) s = .next t
      ∧ (∀ (k : Nat) (x : Stack), k < s.fuses.part.stacksOf tier → s.stack? tier k = some x → ∃ x', t.stack? tier k = some x'
          ∧ x'.bursts = 0 ∧ x'.window.head? = some (x.bursts, (s.burstCounts tier).foldl (· + ·) 0)
          ∧ x'.counters.holdNs = holds.getD k x.counters.holdNs
          ∧ x'.counters.hotWindows = x.counters.hotWindows + BitVec.ofNat 64 (bit (hotCount tier (s.burstCounts tier) x.bursts))
          ∧ (hotCount tier (s.burstCounts tier) x.bursts = true →
              x'.hotRun = x.hotRun + 1 ∧ (x.hot = false → x.hotRun = 9999 → x'.hot = true))
          ∧ (hotCount tier (s.burstCounts tier) x.bursts = false → x'.hotRun = 0))
      ∧ t.mem = s.mem ∧ t.carrels = s.carrels ∧ t.clusters = s.clusters)
  ∧ (∀ (s : State) (link dir : Nat), link < s.spine.length → dir < 2 → s.catalogue.stateCode ≠ 0 →
      exec (.spineFlitReplay link dir) s
        = .next { s with spine := s.spine.modify link fun l => { l with replays := l.replays + 1#64 } })
  ∧ ∀ (s : State) (link dir lane : Nat) (l : SpineLink) (row : LinkRow), s.spine[link]? = some l → s.fuses.part.linkRows[link]? = some row →
      s.fwRuns = true → dir < 2 → lane < row.lanes + s.fuses.part.spareLanes → (link, dir, lane) ∉ s.phys.lanesNow →
      ∃ t l', exec (.spineLaneRetire link dir lane) s = .next t ∧ (link, dir, lane) ∈ t.phys.lanesNow ∧ t.spine[link]? = some l'
        ∧ l'.retrains = l.retrains + 1#64 ∧ l'.replays = l.replays ∧ t.mem = s.mem ∧ t.carrels = s.carrels

/-- R387, R389, R391, R545: a scrub reads the next burst of its channel: with no wrong bit it is only counted; wrong bits in up to three symbols, or on one
lane, are corrected and counted; wrong bits in four symbols of two lanes or more poison the burst. No byte changes. An error in a cluster's local memory is
corrected where one bit is wrong, and poisons the word where two are; in a structure of an operation or a thread it is counted, recorded, and ends that work with
DEVICE_ERROR and the number of the record; a translation cache is refetched. -/
def Obligations.MemoryErrorsAreContained : Prop :=
  (∀ (s : State) (tier : Space) (k ch : Nat) (x : Stack) (o : Nat), s.stack? tier k = some x → s.fwRuns = true → ch < 8 → Clean s →
     o = unshelve (s.fuses.part.stacksOf tier) (s.tr.key tier) k ch (64 * keyed x.scrubAddr ch) →
     (∃ t x', exec (.scrub tier k ch []) s = .next t ∧ t.stack? tier k = some x' ∧ x'.counters.scrubs = x.counters.scrubs + 1#64
         ∧ x'.counters.ce = x.counters.ce
         ∧ keyed x'.scrubAddr ch = (if s.fuses.part.channelBursts tier ≤ keyed x.scrubAddr ch + 1 then 0 else keyed x.scrubAddr ch + 1)
         ∧ t.mem = s.mem ∧ t.bar0 = s.bar0 ∧ t.carrels = s.carrels)
     ∧ ∀ wrong : List (Nat × Nat), wrong ≠ [] →
       ((wrong.map symbolOf).eraseDups.length ≤ 3 ∨ (∃ lane, ∀ b ∈ wrong, b.1 = lane) →
         ∃ t x', exec (.scrub tier k ch wrong) s = .next t ∧ t.stack? tier k = some x' ∧ x'.counters.ce = x.counters.ce + 1#64
           ∧ x'.counters.scrubs = x.counters.scrubs + 1#64 ∧ t.mem = s.mem ∧ t.carrels = s.carrels)
       ∧ ((wrong.map symbolOf).eraseDups.length = 4 → ¬ (∃ lane, ∀ b ∈ wrong, b.1 = lane) → tier = .dep →
         ∃ t, exec (.scrub tier k ch wrong) s = .next t ∧ o / 64 ∈ t.mem.dep.poison ∧ SameMemory s t ∧ t.carrels = s.carrels))
  ∧ ∀ (s : State) (e : ClusterId) (d : DiePower) (key : Bool), s.fwRuns = true → s.die? .c e.cdie = some d → (s.cluster? e).isSome = true →
      (∀ off, backed e.cluster off = true → Clean s →
        exec (.sramScrub (.word e off) key 0) s = .next s
        ∧ (∃ t, exec (.sramScrub (.word e off) key 1) s = .next t ∧ t.die? .c e.cdie = some { d with sramCe := d.sramCe + 1#64 }
            ∧ t.mem = s.mem ∧ t.bar0 = s.bar0 ∧ t.carrels = s.carrels)
        ∧ ∃ t d', exec (.sramScrub (.word e off) key 2) s = .next t ∧ t.die? .c e.cdie = some d' ∧ d'.sramUe = d.sramUe + 1#64
            ∧ (e.index * 2 ^ 25 + off / 8 * 8) / 8 ∈ t.mem.loc.poison ∧ SameMemory s t ∧ t.carrels = s.carrels)
      ∧ (∀ (n : Nat) (c : Cluster) (op : MatrixOp), s.cluster? e = some c → c.matrix.active = some op → op.ended = none → 0 < n →
        (∃ t c' op' k, exec (.sramScrub (.entry (.matrix e)) key n) s = .next t ∧ t.cluster? e = some c' ∧ c'.matrix.active = some op'
          ∧ op'.work = op.work ∧ op'.ended = some ⟨stDeviceError, k⟩ ∧ c'.matrix.acc = c.matrix.acc
          ∧ (∃ d', t.die? .c e.cdie = some d' ∧ d'.parity = d.parity + 1#64) ∧ t.mem = s.mem ∧ t.carrels = s.carrels)
        ∧ ∃ t c' op' k, exec (.sramScrub (.accumulator e) key n) s = .next t ∧ t.cluster? e = some c' ∧ c'.matrix.active = some op'
          ∧ op'.work = op.work ∧ op'.ended = some ⟨stDeviceError, k⟩
          ∧ (∀ p ∈ c'.matrix.acc, p ∈ c.matrix.acc ∧ inRegions op.work.footprint p = false)
          ∧ (∀ p ∈ c.matrix.acc, inRegions op.work.footprint p = false → p ∈ c'.matrix.acc) ∧ t.mem = s.mem ∧ t.carrels = s.carrels)
      ∧ ∀ n, 0 < n → exec (.sramScrub (.translation .c e.cdie) key n) s
          = .next (s.modDie .c e.cdie fun d => { d with tlbRefetch := d.tlbRefetch + 1#64 })

/-- R24 to R27, R61, R553, R555: the one path of the Spine from a die to a die of a part leads over links of the part, no link twice, each met at the end
where the one before it was left, and ends where it should. A message between two dies adds its flits to the counters of the links of its path, in the direction
of the hop, and changes nothing else. How many flits a message has is open (log 58). -/
def Obligations.MessagesFollowTheirSpinePath : Prop :=
  (∀ (p : Part) (src dst : DieKind × Nat), p.hasDie src.1 src.2 = true → p.hasDie dst.1 dst.2 = true →
     p.follow src (p.spinePath src dst) = some dst ∧ ((p.spinePath src dst).map fun h => h.1).Nodup)
  ∧ ∀ (s : State) (src dst : DieKind × Nat) (n : Nat), s.injections = [] → src ≠ dst →
      ((s.fuses.part.spinePath src dst).map fun h => h.1).Nodup →
      ∃ sp, s.crossSpine src dst n = { s with spine := sp } ∧ sp.length = s.spine.length
        ∧ ∀ (k : Nat) (l l' : SpineLink), s.spine[k]? = some l → sp[k]? = some l' →
            ((∀ d, (k, d) ∉ s.fuses.part.spinePath src dst) → l' = l)
            ∧ ∀ d, (k, d) ∈ s.fuses.part.spinePath src dst →
                l'.flitsAb = (if d = 0 then l.flitsAb + BitVec.ofNat 64 (1 + Config.flitsOf n) else l.flitsAb)
                ∧ l'.flitsBa = (if d = 0 then l.flitsBa else l.flitsBa + BitVec.ofNat 64 (1 + Config.flitsOf n))
                ∧ l'.replays = l.replays ∧ l'.retrains = l.retrains ∧ l'.injected = l.injected

/-! ## Windway (R457 to R484) -/

/-- R460, R464, R473, R474: a port that has found its lanes sends LINK_INFO; LINK_INFO from the neighbour of its direction brings it UP, any other makes it
MISWIRED; a port that retrains keeps its retry buffer; a port that does not come up is DOWN, and training is tried again. -/
def Obligations.PortsTrainAndComeUp : Prop :=
  ∀ (s : State) (p : Nat) (x : Port), s.port? p = some x →
    (∀ lanes : BitVec 4, x.state = .training → x.inUse = 0#4 → lanes ≠ 0#4 →
      ∃ t x' f, exec (.portTrained p lanes) s = .next t ∧ t.port? p = some x'
        ∧ x'.inUse ∈ [15#4, 3#4, 12#4, 1#4, 2#4, 4#4, 8#4] ∧ x'.inUse &&& lanes = x'.inUse
        ∧ (∀ g ∈ [15#4, 3#4, 12#4, 1#4, 2#4, 4#4, 8#4], g &&& lanes = g →
            { x with inUse := g }.lanes < x'.lanes ∨ ({ x with inUse := g }.lanes = x'.lanes ∧ x'.inUse.toNat ≤ g.toNat))
        ∧ x'.state = .training ∧ x'.retry = x.retry ∧ t.out.getLast? = some (.frame p f) ∧ f.type = 10 ∧ f.tag = s.fw.startId ∧ f.arg1 = 0x08080804#32
        ∧ f.arg0.setWidth 32 = s.ww.fabric.fabricId ∧ (∀ j, j ≠ p → t.port? j = s.port? j) ∧ t.mem = s.mem ∧ t.carrels = s.carrels)
    ∧ (∀ (f : Frame) (d : Nat), x.state = .training → x.inUse ≠ 0#4 → (∀ n ∈ x.resends, n < 16) → f.type = 10 → f.intact = true → s.ww.fabric.direction p = some d →
      ∃ t x', exec (.linkInfo p f) s = .next t ∧ t.port? p = some x'
        ∧ x'.state = (if f.arg0.setWidth 32 = s.ww.fabric.fabricId ∧ field f.arg0.toNat 43 32 = s.ww.fabric.neighbour d then .up else .miswired)
        ∧ (x'.state = .up → x'.peerStart = some f.tag) ∧ (∀ j, j ≠ p → t.port? j = s.port? j) ∧ t.mem = s.mem ∧ t.carrels = s.carrels)
    ∧ (x.state = .up → ∃ t x', exec (.portRetrain p) s = .next t ∧ t.port? p = some x' ∧ x'.state = .training ∧ x'.inUse = 0#4
        ∧ x'.retry = x.retry ∧ x'.waiting = x.waiting ∧ x'.txSeq = x.txSeq ∧ x'.rxSeq = x.rxSeq
        ∧ x'.counters.retrains = x.counters.retrains + 1#64 ∧ t = { s with ww := { s.ww with ports := t.ww.ports } }
        ∧ ∀ j, j ≠ p → t.port? j = s.port? j)
    ∧ (x.state = .training → ∃ t, exec (.portDown p) s = .next t ∧ t.port? p = some { x with state := .down, inUse := 0#4 }
        ∧ (∀ j, j ≠ p → t.port? j = s.port? j) ∧ t.mem = s.mem ∧ t.carrels = s.carrels)
    ∧ (x.state = .down ∨ x.state = .miswired → exec (.trainingRetry p) s
        = .next (s.modPort p fun x => { x with state := .training, inUse := 0#4 }))

/-- R471, R472: a frame that a port that is UP cannot accept is counted and answered by one NAK, and LSEQ stays; an IDLE acknowledges frames and returns
credits; a NAK, and 4 µs without progress, make every buffered frame be sent again; an idle port sends an IDLE with its LACK. R473: a port with a frame
that has been sent again 16 times retrains instead.

R465, R466: a numbered frame for another rank is accepted and goes on, unchanged but for HOPS, by the port that its ranks choose; one whose HOPS are spent
is discarded and counted, and one for a rank outside the mesh is counted as unreachable (log 40). -/
def Obligations.LinksAcknowledgeResendAndForward : Prop :=
  (∀ (s : State) (p : Nat) (x : Port) (f : Frame), s.port? p = some x → x.state = .up →
    (x.accepts f = false → ∃ t x', exec (.frameDiscard p f) s = .next t ∧ t.port? p = some x' ∧ x'.rxSeq = x.rxSeq ∧ x'.nakSent = true
        ∧ x'.counters.crcErrors = x.counters.crcErrors + 1#64
        ∧ x'.counters.naks = x.counters.naks + BitVec.ofNat 64 (bit (!x.nakSent)) ∧ x'.retry = x.retry
        ∧ (x.nakSent = false → ∃ g, t.out.getLast? = some (.frame p g) ∧ g.type = 11 ∧ g.lack = x.rxSeq) ∧ t.mem = s.mem)
    ∧ (f.type = 0 → x.accepts f = true → x.waiting = [] →
        exec (.wwIdle p f) s = .next (s.modPort p fun y => y.took f))
    ∧ (f.type = 11 → x.accepts f = true → x.waiting = [] → (∀ n ∈ (x.took f).resends, n < 16) → s.injections = [] →
        x.reordered = none →
        ∃ t x', exec (.wwNak p f) s = .next t ∧ t.port? p = some x' ∧ x'.retry = (x.took f).retry
          ∧ x'.counters.resent = x.counters.resent + BitVec.ofNat 64 (x.took f).retry.length ∧ x'.resends = (x.took f).resends.map (· + 1)
          ∧ (t.out.drop s.out.length).map (fun o => match o with | .frame _ g => some (g.lseq, g.type, g.payload) | _ => none)
              = (x.took f).retry.map (fun g => some (g.lseq, g.type, g.payload)) ∧ t.mem = s.mem)
    ∧ ((∃ n ∈ x.resends, 16 ≤ n) → exec (.retryTimeout p) s = .next (s.modPort p Port.retrain))
    ∧ ((∀ n ∈ x.resends, n < 16) → s.injections = [] → x.reordered = none →
        ∃ t x', exec (.retryTimeout p) s = .next t ∧ t.port? p = some x' ∧ x'.retry = x.retry ∧ x'.resends = x.resends.map (· + 1)
          ∧ x'.counters.resent = x.counters.resent + BitVec.ofNat 64 x.retry.length
          ∧ (t.out.drop s.out.length).map (fun o => match o with | .frame _ g => some (g.lseq, g.type, g.payload) | _ => none)
              = x.retry.map (fun g => some (g.lseq, g.type, g.payload)) ∧ t.mem = s.mem)
    ∧ ∃ t g, exec (.idleSend p) s = .next t ∧ t.out = s.out ++ [.frame p g] ∧ g.type = 0 ∧ g.lack = x.rxSeq ∧ t.mem = s.mem
        ∧ t.carrels = s.carrels)
  ∧ (∀ (s : State) (p q : Nat) (x y : Port) (f : Frame), s.port? p = some x → x.state = .up → x.accepts f = true →
    s.ww.fabric.turn f.dst ≠ none → s.ww.fabric.route f.src f.dst = some q → s.port? q = some y →
    ∀ c ∈ [(Instr.wwRead p f, 1), (.wwWrite p f, 2), (.wwAmo p f, 3), (.wwResponse p f, 4), (.wwBucket p f, 5), (.wwGrant p f, 6),
        (.wwResult p f, 7), (.wwStatsIn p f, 8), (.wwStatsOut p f, 9)],
      f.type = c.2 →
      (s.ww.fabric.reaches f.dst = false → ∃ t, exec c.1 s = .next t ∧ t.ww.unreachable = s.ww.unreachable + 1#64
          ∧ t.mem = s.mem ∧ t.coll = s.coll ∧ t.clusters = s.clusters)
      ∧ (s.ww.fabric.reaches f.dst = true → f.hops ≠ 0 → ∃ t x' y' g, exec c.1 s = .next t ∧ t.port? p = some x' ∧ x'.rxSeq = f.lseq ∧ t.port? q = some y'
          ∧ g ∈ y'.waiting ++ y'.retry ∧ g.type = f.type ∧ g.vc = f.vc ∧ g.hops = f.hops - 1 ∧ g.src = f.src ∧ g.dst = f.dst
          ∧ g.arg0 = f.arg0 ∧ g.tag = f.tag ∧ g.arg1 = f.arg1 ∧ g.payload = f.payload ∧ t.mem = s.mem ∧ t.coll = s.coll
          ∧ t.clusters = s.clusters)
      ∧ (s.ww.fabric.reaches f.dst = true → f.hops = 0 → ∃ t x', exec c.1 s = .next t ∧ t.port? p = some x' ∧ x'.rxSeq = f.lseq
          ∧ x'.counters.ttlDrops = x.counters.ttlDrops + 1#64 ∧ t.mem = s.mem ∧ t.coll = s.coll ∧ t.clusters = s.clusters))

/-- R365, R478: a request from a peer that its PEER permission and the page grant is performed in this device's memory (a WRITE stores its bytes, an atomic its new
value, and nothing else), and its RESPONSE is queued toward the requester. -/
def Obligations.PeerRequestsAreServed : Prop :=
  ∀ (s : State) (p q : Nat) (x y : Port) (f : Frame) (sp : Space) (o : Nat), s.port? p = some x → x.state = .up → x.accepts f = true →
    s.ww.fabric.turn f.dst = none → s.ww.fabric.reaches f.dst = true → s.ww.fabric.reaches f.src = true →
    s.ww.fabric.route s.ww.fabric.rank f.src = some q → s.port? q = some y → Clean s →
    let n := field f.arg1.toNat 9 0
    let va := f.arg0.toNat % 2 ^ 52
    let answered (t : State) (outcome : Nat) (data : List Byte) : Prop := ∃ y' g, t.port? q = some y' ∧ g ∈ y'.waiting ++ y'.retry
      ∧ g.type = 4 ∧ g.vc = 1 ∧ g.dst = f.src ∧ g.tag = f.tag ∧ g.arg1 = BitVec.ofNat 32 outcome
      ∧ g.payload.take data.length = data
    (f.type = 1 → Lands s .peer .read va n sp o →
      ∃ t, exec (.wwRead p f) s = .next t ∧ answered t 0 ((List.range n).map fun i => s.byteAt sp (o + i)) ∧ SameMemory s t
        ∧ t.clusters = s.clusters ∧ t.carrels = s.carrels ∧ t.bar0 = s.bar0)
    ∧ (f.type = 2 → n ≤ f.payload.length → Lands s .peer .write va n sp o →
      ∃ t, exec (.wwWrite p f) s = .next t ∧ answered t 0 [] ∧ Stored s t sp o (f.payload.take n)
        ∧ t.clusters = s.clusters ∧ t.carrels = s.carrels ∧ t.bar0 = s.bar0)
    ∧ (f.type = 3 → Lands s .peer .atomic va 8 sp o →
      ∃ t, exec (.wwAmo p f) s = .next t
        ∧ answered t 0 ((List.range 8).map fun i => s.byteAt sp (o + i))
        ∧ Stored s t sp o (leBytes 8 (amoValue (field f.arg1.toNat 1 0)
            (BitVec.ofNat 64 (leNat ((List.range 8).map fun i => s.byteAt sp (o + i)))) (BitVec.ofNat 64 (get64 f.payload 0))
            (BitVec.ofNat 64 (get64 f.payload 8))).toNat)
        ∧ t.clusters = s.clusters ∧ t.carrels = s.carrels ∧ t.bar0 = s.bar0)

/-- R477, R479: a RESPONSE with OUTCOME OK gives a waiting thread its data; one that no request waits for is counted as late; a request that times out is counted,
recorded, and is no longer outstanding. -/
def Obligations.ResponsesReachTheirRequesters : Prop :=
  (∀ (s : State) (p : Nat) (x : Port) (f : Frame), s.port? p = some x → x.state = .up → x.accepts f = true → x.waiting = [] →
    s.ww.fabric.turn f.dst = none → s.ww.fabric.reaches f.dst = true → f.type = 4 → NothingHeld s = true →
    (∀ (r : RemoteReq) (tid : ThreadId) (th : Thread) (rd w : Nat), (s.ww.requests.find? fun r => r.tag == f.tag.toNat) = some r →
      r.owner = .thread tid → s.thread? tid = some th → th.state = .waiting → th.wait = .remote rd w (2 * f.tag.toNat + 1) → rd < 32 →
      w ≤ 8 → field f.arg1.toNat 7 0 = 0 →
      ∃ t th', exec (.wwResponse p f) s = .next t ∧ t.thread? tid = some th' ∧ th'.state = .running ∧ th'.pc = th.pc + 4#64
        ∧ th'.reg rd = BitVec.ofNat 64 (leNat (f.payload.take w)) ∧ (∀ k, k ≠ rd → th'.reg k = th.reg k)
        ∧ (∀ r ∈ t.ww.requests, r.tag ≠ f.tag.toNat) ∧ SameMemory s t ∧ t.carrels = s.carrels)
    ∧ ((s.ww.requests.find? fun r => r.tag == f.tag.toNat) = none →
      ∃ t, exec (.wwResponse p f) s = .next t ∧ t.ww.late = s.ww.late + 1#64 ∧ t.clusters = s.clusters ∧ SameMemory s t))
  ∧ ∀ (s : State) (tag : Nat) (r : RemoteReq) (x e : Nat) (j : DmaJob), (s.ww.requests.find? fun r => r.tag == tag) = some r → r.tag = tag →
      r.owner = .dma x e → s.job? x e = some j → j.waiting = some (2 * tag + 1) → NothingHeld s = true →
      ∃ t j', exec (.remoteTimeout tag) s = .next t ∧ t.ww.timeouts = s.ww.timeouts + 1#64 ∧ (∀ r ∈ t.ww.requests, r.tag ≠ tag)
        ∧ t.job? x e = some j' ∧ (∃ d, j'.ended = some ⟨stDeviceError, d⟩) ∧ SameMemory s t ∧ t.carrels = s.carrels

/-! ## Sessions, carrels and settings (R42, R104 to R121, R489, R491, R507, R509, R560, R561) -/

/-- R42, R104, R112, R119, R489, R491, R507: GET_VERSION, GET_TELEMETRY and GET_TIMESTAMP answer and change nothing; SET_POWER_POLICY, SET_ORPHAN_TIMEOUT and
SET_MIRROR set what their payload says, or refuse a field outside its range.

R104, R105, R111: a ring whose request is answered is counted and nothing else; an opcode that the table does not have, or that the carrel does not take,
answers BAD_OPCODE. -/
def Obligations.ReportsSettingsAndOtherRings : Prop :=
  (∀ (s : State) (k : Nat) (c : Carrel),
    (∀ i, RungFirst s 0 0x15 0 c → s.fw.running = some i →
      ∃ t, exec .getVersion s = .next t ∧ Replied s (s.clearPend 0) t 0 c 0 0 0#32
        (leBytes 4 i.uadin.toNat ++ leBytes 4 i.build.toNat ++ leBytes 4 s.fuses.romVersion.toNat ++ leBytes 4 i.svn.toNat))
    ∧ (Rung s k 0x61 0 c → ∃ t, exec (.getTelemetry k) s = .next t ∧ Replied s (s.clearPend k) t k c 0 0 0#32
        (leBytes 2 s.power.avg10ms ++ leBytes 1 s.tempMax ++ leBytes 1 s.throttle ++ leBytes 1 s.emergency))
    ∧ (RungFirst s k 0x17 4 c → (k = 0 ∨ s.session.state ≠ .orphaned) →
        timestampBad s.fuses.part (get8 (c.payload 4) 0) (get8 (c.payload 4) 1) (get16 (c.payload 4) 2) = none →
        ∃ t ns bound, exec (.getTimestamp k) s = .next t ∧ bound ≤ 125 ∧ (get8 (c.payload 4) 0 = 3 → bound = 0)
          ∧ Replied s { s.clearPend k with freeCtr := t.freeCtr, power := { s.power with ticks := t.power.ticks } } t k c 0 0 0#32 (leBytes 8 ns ++ leBytes 4 bound))
    ∧ (Rung s 0 0x60 3 c →
        let cap := get16 (c.payload 3) 0
        let target := get8 (c.payload 3) 2
        (cap ≠ 0 → (10 * cap < 4 * s.fuses.part.pmax ∨ s.fuses.part.pmax < cap) →
          ∃ t, exec .setPowerPolicy s = .next t ∧ Replied s (s.clearPend 0) t 0 c 0x4 0 0#32 [])
        ∧ ((cap = 0 ∨ (4 * s.fuses.part.pmax ≤ 10 * cap ∧ cap ≤ s.fuses.part.pmax)) → (target = 0 ∨ (70 ≤ target ∧ target ≤ 100)) →
          ∃ t, exec .setPowerPolicy s = .next t
            ∧ Replied s { s.clearPend 0 with power := { s.power with capW := if cap = 0 then s.fuses.part.pmax else cap
                                                                     targetC := if target = 0 then 90 else target } } t 0 c 0 0 0#32
                (leBytes 2 (if cap = 0 then s.fuses.part.pmax else cap))))
    ∧ (Rung s 0 0x12 4 c →
        let ms := get32 (c.payload 4) 0
        ((ms = 0 ∨ (200 ≤ ms ∧ ms ≤ 60000)) → ∃ t, exec .setOrphanTimeout s = .next t
          ∧ Replied s { s.clearPend 0 with session := { s.session with orphanMs := ms } } t 0 c 0 0 0#32 (leBytes 4 ms))
        ∧ (ms ≠ 0 → (ms < 200 ∨ 60000 < ms) → ∃ t, exec .setOrphanTimeout s = .next t ∧ Replied s (s.clearPend 0) t 0 c 0x4 0 0#32 []))
    ∧ (Rung s k 0x16 8 c →
        let m := get64 (c.payload 8) 0
        (m % 4096 = 0 → ∃ t, exec (.setMirror k) s = .next t
          ∧ Replied s ((s.clearPend k).modCarrel k fun x =>
              { x with mirror := BitVec.ofNat 64 m, mirrorDue := if m = 0 then [] else x.mirrorDue }) t k c 0 0 0#32 [])
        ∧ (m % 4096 ≠ 0 → ∃ t, exec (.setMirror k) s = .next t ∧ Replied s (s.clearPend k) t k c 0x4 0 0#32 [])))
  ∧ (∀ (s : State) (k : Nat) (c : Carrel),
    (s.carrel? k = some c → s.bar0.pend.getLsbD k = true → s.takesRings = true → c.reqSeq = c.rspSeq →
      exec (.carrelEmptyRing k) s = .next { s.clearPend k with host := { s.host with emptyRing := s.host.emptyRing + 1#64 } })
    ∧ (RungFirst s k c.opcode c.payloadLen c → (k = 0 ∨ s.session.state ≠ .orphaned) →
        (opRow? c.opcode = none ∨ (0 < k ∧ ∃ r, opRow? c.opcode = some r ∧ r.only0 = true)) →
        ∃ t, exec (.badOpcode k) s = .next t ∧ Replied s (s.clearPend k) t k c 0x2 0 0#32 []))

/-- R114, R116, R117: an ATTACH begins, resumes or replaces a session, or answers BUSY; a DETACH discards queued work and answers once dispatched work has ended:
then there is no session, and its queues, groups, mappings and policies are gone. -/
def Obligations.SessionsBeginAndEnd : Prop :=
  (∀ (s : State) (c : Carrel), RungFirst s 0 0x10 24 c →
    let pl := c.payload 24
    let id := BitVec.ofNat 64 (get64 pl 0)
    let ms := get32 pl 0x10
    let force := bitAt (get32 pl 0x14) 0
    let scrub := bitAt (get32 pl 0x14) 1
    id ≠ 0#64 → (ms = 0xFFFFFFFF ∨ ms = 0 ∨ (200 ≤ ms ∧ ms ≤ 60000)) →
    (s.session.state = .attached → id ≠ s.session.id → force = false →
      ∃ t, exec .attach s = .next t ∧ Replied s (s.clearPend 0) t 0 c 0xB 0 0#32 [])
    ∧ ∀ o : Nat, ((s.session.state = .detached ∧ o = 0) ∨ (s.session.state ≠ .detached ∧ id = s.session.id ∧ o = 1)
        ∨ (id ≠ s.session.id ∧ (s.session.state = .orphaned ∨ (s.session.state = .attached ∧ force = true)) ∧ o = 2)) →
      let w := if o = 2 then (s.clearPend 0).replaceSession else s.clearPend 0
      let v := if o ≠ 1 ∧ scrub = true then w.scrubAll else w
      let m := ({ v with session := { v.session with
        state := .attached
        id := id
        ageMs := 0
        drvUadin := BitVec.ofNat 32 (get32 pl 8)
        orphanMs := if ms = 0xFFFFFFFF then v.session.orphanMs else ms } }).masteringResumed
      ∃ t, exec .attach s = .next t
        ∧ Replied s m t 0 c 0 0 0#32
            ([m.fw.running.elim 0 fun i => i.uadin.toNat, m.fw.running.elim 0 fun i => i.build.toNat, get32 pl 8, get32 pl 0x0C,
              m.fuses.romVersion.toNat, o + 4 * bit ((m.fw.running.elim 0 fun i => i.uadin.toNat) == get32 pl 8),
              (m.carrels.map Carrel.heldCount).foldl (· + ·) 0, m.queuedOps, m.session.orphanMs, m.session.orphanEvents.toNat].flatMap
              (leBytes 4))
        ∧ (o = 2 → w.queues = [] ∧ w.coll.groups = [] ∧ w.policies = [] ∧ w.tr.leaves = [] ∧ w.update = ⟨[], [], []⟩
            ∧ ∀ (j : Nat) (x : Carrel), j ≠ 0 → w.carrel? j = some x → x.isOpen = false ∧ x.mirror = 0#64)
        ∧ (o ≠ 1 → scrub = true → (∀ a, a < w.fuses.part.fwBase → v.byteAt .near a = 0#8)
            ∧ ∀ a, a < w.fuses.part.depBytes → v.byteAt .dep a = 0#8))
  ∧ (∀ (s : State) (c : Carrel), RungFirst s 0 0x11 0 c → s.session.state = .attached →
    let b := (s.clearPend 0).beginDetach
    let f := b.2.finishDetach b.1
    (b.2.working = true → ∃ t, exec .detach s = .next t ∧ t.session = { b.2.session with detaching := some b.1 }
      ∧ t.queues = b.2.queues ∧ t.mem = b.2.mem ∧ t.carrels = b.2.carrels)
    ∧ (b.2.working = false → ∃ t, exec .detach s = .next t ∧ Replied s f.2 t 0 c 0 0 0#32 (leBytes 4 f.1)
      ∧ t.session.state = .detached ∧ t.session.id = 0#64 ∧ t.queues = [] ∧ t.coll.groups = [] ∧ t.tr.leaves = [] ∧ t.policies = []))
  ∧ ∀ (s : State) (n : Nat) (c : Carrel), s.session.detaching = some n → s.working = false → s.carrel? 0 = some c →
      ∃ t c', exec .detach s = .next t ∧ t.session.state = .detached ∧ t.session.detaching = none ∧ t.queues = [] ∧ t.tr.leaves = []
        ∧ t.carrel? 0 = some c' ∧ c'.rspSeq = c.rspSeq + 1#32

/-- R88, R90, R120, R561: OPEN_CARREL and CLOSE_CARREL; a heartbeat that is too old orphans the session, which keeps everything; a function-level reset ends the
session and all work, keeps LOCK and memory, and says so in RESET_CAUSE. -/
def Obligations.CarrelsOrphansAndFunctionReset : Prop :=
  (∀ (s : State) (c x : Carrel), Rung s 0 0x13 1 c →
    let j := get8 (c.payload 1) 0
    s.carrel? j = some x → j ≠ 0 →
    (x.isOpen = false → ∃ t, exec .openCarrel s = .next t
      ∧ Replied s ((s.clearPend 0).modCarrel j fun x =>
          { x with isOpen := true, reqSeq := 0#32, rspSeq := 0#32, cplTail := 0#32, cplHead := 0#32, hold := [], mirror := 0#64,
                   mirrorDue := [], nextTicket := 1#32 }) t 0 c 0 0 0#32 [])
    ∧ (x.isOpen = true → ∃ t, exec .openCarrel s = .next t ∧ Replied s (s.clearPend 0) t 0 c 0x6 0 0#32 []))
  ∧ (∀ (s : State) (c x : Carrel), Rung s 0 0x14 1 c →
    let j := get8 (c.payload 1) 0
    s.carrel? j = some x → j ≠ 0 → x.isOpen = true →
    (s.carrelBusy j = false → ∃ t, exec .closeCarrel s = .next t
      ∧ Replied s ((s.clearPend 0).modCarrel j fun x =>
          { x with isOpen := false, hold := [], cplTail := x.cplHead, mirror := 0#64, mirrorDue := [] }) t 0 c 0 0 0#32
          (leBytes 4 (x.hold.length + (x.cplTail - x.cplHead).toNat)))
    ∧ (s.carrelBusy j = true → ∃ t, exec .closeCarrel s = .next t ∧ Replied s (s.clearPend 0) t 0 c 0xB 0 0#32 []))
  ∧ (∀ (s : State) (age : Nat), s.session.state = .attached → s.fwRuns = true → s.session.orphanMs ≠ 0 →
    (s.fw.activation = .handing → exec (.orphanTimeout age) s = .next s)
    ∧ (s.fw.activation ≠ .handing → s.session.orphanMs ≤ age → exec (.orphanTimeout age) s = .next
      { s with session := { s.session with ageMs := age, state := .orphaned, orphanEvents := s.session.orphanEvents + 1#32 }
               host := { s.host with orphanEvents := s.host.orphanEvents + 1#64 } })
    ∧ (s.fw.activation ≠ .handing → age < s.session.orphanMs → exec (.orphanTimeout age) s = .next { s with session := { s.session with ageMs := age } }))
  ∧ ∀ s : State, s.linkUp = true → s.fw.activation ≠ .handing →
    ∃ t, exec .functionLevelReset s = .next t ∧ t.carrels = carrelsReset ∧ t.session.state = .detached ∧ t.session.id = 0#64
      ∧ t.queues = [] ∧ t.coll.groups = [] ∧ t.policies = [] ∧ t.tr.leaves = [] ∧ t.update = ⟨[], [], []⟩ ∧ t.faults = []
      ∧ (∀ cl ∈ t.clusters, cl.matrix = MatrixEngine.reset ∧ cl.vector = ⟨[], none⟩ ∧ ∀ th ∈ cl.threads, th.state = .idle)
      ∧ (∀ j ∈ t.dma, j = none) ∧ t.bar0.resetCause = 4#3 ∧ t.bar0.bar2Lo = 0#32 ∧ t.bar0.pba = 0#256
      ∧ t.cfg = { ConfigSpace.reset with aer := s.cfg.aer, aerFatal := s.cfg.aerFatal, aerCorrected := s.cfg.aerCorrected,
                                          ecrcGenerate := s.cfg.ecrcGenerate, ecrcCheck := s.cfg.ecrcCheck }
      ∧ (s.ww.peerHold = [] → t.bar0.lock = s.bar0.lock ∧ t.mem.near = s.mem.near ∧ t.mem.dep = s.mem.dep)

/-! ## The address space and its keys (R349 to R358, R382 to R385) -/

/-- R356, R357: MAP adds its leaves where nothing is mapped yet, UNMAP takes every leaf of its range away, PROTECT changes the permissions of the leaves of
its range; no other leaf changes. UNMAP and PROTECT wait while an access through an old entry of their range is outstanding.

R358, R383, R384, R540: SET_PT_BASE and SET_SHELVING_KEY answer LOCKED under their LOCK bit and BAD_STATE where work or mappings forbid them; else the tree, or
the key, is in force, and under a new key every byte of the tier outside the firmware region is undefined. -/
def Obligations.MapsAndTreesAreSet : Prop :=
  ((∀ (s : State) (k : Nat) (c : Carrel), Rung s k 0x30 27 c →
    let pl := c.payload 27
    let va := get64 pl 0
    let target := get64 pl 8
    let len := get64 pl 16
    let size := get8 pl 24
    let kind := get8 pl 25
    let perm := get8 pl 26
    mapBad s.fuses.part va target len size kind perm = none →
    ((∃ l ∈ s.tr.leaves, l.overlaps va len = true) → ∃ t, exec (.map k) s = .next t ∧ Replied s (s.clearPend k) t k c 0x6 0 0#32 [])
    ∧ ((∀ l ∈ s.tr.leaves, l.overlaps va len = false) → s.tr.leaves.length + len / levelBytes size ≤ s.tr.pool →
      ∃ t, exec (.map k) s = .next t ∧ Replied s { s.clearPend k with tr := { s.tr with leaves := t.tr.leaves } } t k c 0 0 0#32 []
        ∧ ∀ l, l ∈ t.tr.leaves ↔ l ∈ s.tr.leaves ∨ ∃ i, i < len / levelBytes size ∧ l = ⟨va + i * levelBytes size, size,
            BitVec.ofNat 64 (target + i * levelBytes size + kind * 2 ^ 8 + perm * 4 + 3)⟩))
  ∧ (∀ (s : State) (k : Nat) (c : Carrel), Rung s k 0x31 16 c →
    let va := get64 (c.payload 16) 0
    let len := get64 (c.payload 16) 8
    firstBad (spanBad s va len) = none →
      (s.rangeInUse va len = true → exec (.unmap k) s = .next s)
      ∧ (s.rangeInUse va len = false →
        ∃ t, exec (.unmap k) s = .next t ∧ Replied s { s.clearPend k with tr := { s.tr with leaves := t.tr.leaves } } t k c 0 0 0#32 []
          ∧ ∀ l, l ∈ t.tr.leaves ↔ l ∈ s.tr.leaves ∧ l.overlaps va len = false))
  ∧ ∀ (s : State) (k : Nat) (c : Carrel), Rung s k 0x32 17 c →
    let va := get64 (c.payload 17) 0
    let len := get64 (c.payload 17) 8
    let perm := get8 (c.payload 17) 16
    firstBad (spanBad s va len) = none → permOk perm = true →
      let ls := s.tr.leaves.map fun l =>
        if l.overlaps va len then { l with entry := (l.entry &&& ~~~0x7C#64) ||| BitVec.ofNat 64 (perm * 4) } else l
      (s.rangeInUse va len = true → exec (.protect k) s = .next s)
      ∧ (s.rangeInUse va len = false →
        ∃ t, exec (.protect k) s = .next t ∧ Replied s { s.clearPend k with tr := { s.tr with leaves := ls } } t k c 0 0 0#32 []))
  ∧ ((∀ (s : State) (c : Carrel), Rung s 0 0x33 8 c →
    let root := get64 (c.payload 8) 0
    (s.bar0.lock.getLsbD 0 = true → ∃ t, exec .setPtBase s = .next t ∧ Replied s (s.clearPend 0) t 0 c 0xA 0 0#32 [])
    ∧ (s.bar0.lock.getLsbD 0 = false → s.anyWork = true →
        ∃ t, exec .setPtBase s = .next t ∧ Replied s (s.clearPend 0) t 0 c 0x6 0 0#32 [])
    ∧ (s.bar0.lock.getLsbD 0 = false → s.anyWork = false →
        (root = 0 → ∃ t, exec .setPtBase s = .next t
          ∧ Replied s { s.clearPend 0 with tr := { s.tr with leaves := [] }, fw := { s.fw with ptBaseSet := false } } t 0 c 0 0 0#32 [])
        ∧ ∀ ls, root ≠ 0 → root % 4096 = 0 → root + 4096 ≤ s.fuses.part.fwBase →
          importTable s.fuses.part s.mem.near 4 root 0 = some ls → ls.length ≤ s.tr.pool →
          ∃ t, exec .setPtBase s = .next t
            ∧ Replied s { s.clearPend 0 with tr := { s.tr with leaves := ls }, fw := { s.fw with ptBaseSet := true } } t 0 c 0 0 0#32 []))
  ∧ ∀ (s : State) (c : Carrel) (drawn : BitVec 128), Rung s 0 0x34 17 c →
    let key := getLe (c.payload 17) 0 16
    let sp : Space := if get8 (c.payload 17) 16 = 0 then .near else .dep
    let top := if get8 (c.payload 17) 16 = 0 then s.fuses.part.fwBase else s.fuses.part.depBytes
    (get8 (c.payload 17) 16 = 0 ∨ (get8 (c.payload 17) 16 = 1 ∧ s.fuses.part.d ≠ 0)) →
    (s.bar0.lock.getLsbD 4 = true → ∃ t, exec (.setShelvingKey drawn) s = .next t ∧ Replied s (s.clearPend 0) t 0 c 0xA 0 0#32 [])
    ∧ (s.bar0.lock.getLsbD 4 = false → (∃ l ∈ s.tr.leaves, field l.entry.toNat 10 8 = get8 (c.payload 17) 16) →
        ∃ t, exec (.setShelvingKey drawn) s = .next t ∧ Replied s (s.clearPend 0) t 0 c 0x6 0 0#32 [])
    ∧ (s.bar0.lock.getLsbD 4 = false → (∀ l ∈ s.tr.leaves, field l.entry.toNat 10 8 ≠ get8 (c.payload 17) 16) →
        ∃ t, exec (.setShelvingKey drawn) s = .next t ∧ Answered t 0 c 0 0 0#32 []
          ∧ t.tr.key sp = (if key = 0 then drawn.toNat else key) ∧ t.tr.leaves = s.tr.leaves
          ∧ (∃ tag, ∀ a, a < top → t.byteAt sp a = Config.freeByte tag a)
          ∧ (∀ a, top ≤ a → t.byteAt sp a = s.byteAt sp a) ∧ (∀ sp' a, sp' ≠ sp → t.byteAt sp' a = s.byteAt sp' a)
          ∧ t.queues = s.queues ∧ t.clusters = s.clusters ∧ (∀ j, j ≠ 0 → t.carrel? j = s.carrel? j)))

/-! ## Queues and faults (R112, R229, R343, R368 to R374) -/

/-- R112, R229, R343, R374: CREATE_QUEUE, DESTROY_QUEUE, SUBMIT, DMA_COPY and CANCEL; the hand-off of an item puts its descriptor into its engine's queue. -/
def Obligations.QueuesTakeAndHandOnWork : Prop :=
  (∀ (s : State) (k : Nat) (c : Carrel), Rung s k 0x40 1 c → get8 (c.payload 1) 0 ≤ 1 → (∃ n, n < 1024 ∧ ∀ q ∈ s.queues, q.num ≠ n) →
    ∃ t n, exec (.createQueue k) s = .next t ∧ n < 1024 ∧ (∀ q ∈ s.queues, q.num ≠ n)
      ∧ Replied s { s.clearPend k with queues := s.queues ++ [⟨n, k, get8 (c.payload 1) 0 == 1, []⟩], freeCtr := t.freeCtr } t k c 0 0 0#32
          (leBytes 2 n))
  ∧ (∀ (s : State) (k : Nat) (c : Carrel) (q : Queue), Rung s k 0x41 2 c → s.queue? (get16 (c.payload 2) 0) = some q →
    (q.items = [] → ∃ t, exec (.destroyQueue k) s = .next t
      ∧ Replied s { s.clearPend k with queues := s.queues.filter fun x => x.num != q.num } t k c 0 0 0#32 [])
    ∧ (q.items ≠ [] → ∃ t, exec (.destroyQueue k) s = .next t ∧ Replied s (s.clearPend k) t k c 0xB 0 0#32 []))
  ∧ (∀ (s : State) (k : Nat) (h : HostView) (c : Carrel) (q : Queue), Rung s k 0x42 14 c → Clean s →
    let va := get64 (c.payload 14) 0
    let count := get32 (c.payload 14) 8
    va % 64 = 0 → count ≠ 0 → s.queue? (get16 (c.payload 14) 12) = some q →
    (∀ i, i < count → ∃ sp o, Lands s .device .read (va + 192 * i) 192 sp o) →
      ∃ t items q', exec (.submit k h) s = .next t ∧ Answered t k c 1 0 c.nextTicket [] ∧ t.queue? q.num = some q'
        ∧ q' = { q with items := q.items ++ items } ∧ items.length = count
        ∧ (∀ it ∈ items, it.via = k ∧ it.ticket = c.nextTicket ∧ it.tag = c.tag ∧ it.opcode = 0x42 ∧ it.state = .waiting)
        ∧ (∀ i it sp o, items[i]? = some it → Lands s .device .read (va + 192 * i) 192 sp o →
            it.work = .desc ((List.range 192).map fun j => s.byteAt sp (o + j)))
        ∧ SameMemory s t ∧ t.clusters = s.clusters ∧ t.coll = s.coll)
  ∧ (∀ (s : State) (k : Nat) (c : Carrel) (q : Queue), Rung s k 0x35 34 c →
    let pl := c.payload 34
    let len := get64 pl 16
    let prog := get64 pl 24
    s.queue? (get16 pl 32) = some q → len ≠ 0 → len ≤ 2 ^ 40 → prog % 32 = 0 →
      ∃ t, exec (.dmaCopy k) s = .next t ∧ Answered t k c 1 0 c.nextTicket []
        ∧ t.queue? q.num = some { q with items := q.items ++
            [⟨s.nextUid, k, c.nextTicket, c.tag, 0x35, .dma (get64 pl 0) (get64 pl 8) len prog, .waiting⟩] }
        ∧ t.mem = s.mem ∧ t.dma = s.dma ∧ t.clusters = s.clusters)
  ∧ (∀ (s : State) (k : Nat) (c : Carrel) (q : Queue), Rung s k 0x43 2 c → s.queue? (get16 (c.payload 2) 0) = some q →
    ∃ t q', exec (.cancel k) s = .next t
      ∧ Answered t k c 0 0 0#32 (leBytes 4 (q.items.filter fun it => it.state == .waiting).length)
      ∧ t.queue? q.num = some q' ∧ (∀ it ∈ q'.items, it.state ≠ .waiting)
      ∧ (q'.items.filter fun it => it.state == .started) = (q.items.filter fun it => it.state == .started)
      ∧ t.mem = s.mem ∧ t.clusters = s.clusters ∧ t.coll = s.coll)
  ∧ ∀ (s : State) (num : Nat) (q : Queue) (it : Item) (d : List Byte) (r : EngineRef), s.offered num = some (q, it) → it.work = .desc d →
      s.engineOf d = .ok r → descKind d ≠ 5 → s.engineFull d r = false →
      ∃ t, exec (.queueItemHandoff num) s = .next t ∧ ⟨it.uid, .queue num, q.urgent, d, []⟩ ∈ t.engineQueue r
        ∧ t.queues = s.queues.map (fun x => if x.num = num then
            { x with items := x.items.map fun i => if i.uid = it.uid then { i with state := .started } else i } else x)
        ∧ t.mem = s.mem ∧ t.carrels = s.carrels ∧ t.bar0 = s.bar0 ∧ t.tr = s.tr ∧ t.coll = s.coll ∧ t.update = s.update

/-- R368, R369, R371: a suspended access that translates again goes on, counted; one that does not raises a fault event with a FAULT_ID of its own, or joins an
equal one; a FAULT_REPLY ends the FAULT_ID, and with RETRY or ABORT its waiters go on or end. -/
def Obligations.FaultsAreReportedAndAnswered : Prop :=
  (∀ (s : State) (tid : ThreadId) (th : Thread) (x : Suspension), s.thread? tid = some th → th.state = .suspended → th.ending = none →
    th.suspended = some x → x.reported = false → s.enginesRun = true → s.session.detaching = none →
    (s.walkAgain x = none →
      ∃ t, exec (.faultReport (.thread tid)) s = .next t ∧ t.thread? tid = some { th with suspended := none, state := .running }
        ∧ t.host = { s.host with faultsRetried := s.host.faultsRetried + 1#64 } ∧ t.faults = s.faults
        ∧ (∀ u, u ≠ tid → t.thread? u = s.thread? u) ∧ t.mem = s.mem ∧ t.carrels = s.carrels)
    ∧ ∀ cls, s.walkAgain x = some cls → suspends cls = true →
      ((∀ f ∈ s.faults, ¬ (f.cls = cls ∧ f.acc = x.acc ∧ f.span = x.va / 65536)) → s.faults.length < 1024 →
        ∃ t th' id, exec (.faultReport (.thread tid)) s = .next t ∧ (∀ f ∈ s.faults, f.id ≠ id)
          ∧ t.faults = s.faults ++ [⟨id, cls, x.acc, x.va / 65536, [.thread tid]⟩] ∧ field id.toNat 31 20 = tid.at_.cdie % 16 * 16 + tid.at_.cluster % 16
          ∧ t.thread? tid = some th' ∧ th'.state = .suspended ∧ th'.suspended = some { x with cls := cls, reported := true, faultId := some id }
          ∧ t.mem = s.mem ∧ t.queues = s.queues)
      ∧ ∀ f, (s.faults.find? fun f => f.cls == cls && f.acc == x.acc && f.span == x.va / 65536) = some f →
        ∃ t th', exec (.faultReport (.thread tid)) s = .next t ∧ t.faults.length = s.faults.length
          ∧ (∃ g ∈ t.faults, g.id = f.id ∧ .thread tid ∈ g.waiters) ∧ t.thread? tid = some th'
          ∧ th'.suspended = some { x with cls := cls, reported := true, faultId := some f.id } ∧ t.mem = s.mem ∧ t.carrels = s.carrels)
  ∧ ∀ (s : State) (k : Nat) (c : Carrel), Rung s k 0x36 5 c →
    let id : Word32 := BitVec.ofNat 32 (get32 (c.payload 5) 0)
    ((∀ f ∈ s.faults, f.id ≠ id) → ∃ t, exec (.faultReply k) s = .next t ∧ Replied s (s.clearPend k) t k c 0x4 0 0#32 [])
    ∧ ∀ (f : FaultRec), (s.faults.find? fun f => f.id == id) = some f → get8 (c.payload 5) 4 ≤ 1 →
      ∃ t, exec (.faultReply k) s = .next t ∧ Replied s ((s.clearPend k).answerFault f (get8 (c.payload 5) 4 == 1)) t k c 0 0 0#32 []
        ∧ ∀ (tid : ThreadId) (th : Thread) (x : Suspension), f.waiters = [.thread tid] → s.thread? tid = some th → th.state = .suspended →
            th.ending = none → th.suspended = some x → x.faultId = some f.id → s.faultWait = [] →
            get8 (c.payload 5) 4 = 0 → s.walkAgain x = none →
              t.thread? tid = some { th with suspended := none, state := .running }
                ∧ t.faults = s.faults.filter fun h => h.id != f.id

/-! ## Groups, schedules, policies, tables (R187 to R189, R251, R323, R324, R397 to R400, R430, R436) -/

/-- R397 to R400, R430, R436: JOIN_GROUP and SET_BUCKETS keep what a valid record says; LEAVE_GROUP takes a group away that no REDUCE uses; SET_SCHEDULE and
SET_FREEZE_MASK set or erase a layer's entry. -/
def Obligations.GroupsAndSchedulesAreSet : Prop :=
  (∀ (s s' : State) (k : Nat) (c : Carrel) (m : List Byte) (i : Nat), Rung s k 0x50 12 c →
    let rank := get16 (c.payload 12) 8
    let size := get16 (c.payload 12) 10
    size ≠ 0 → size ≤ 4096 → CommandReads s k (get64 (c.payload 12) 0) (16 + 4 * size) m s' → rankMapBad m size = false → get16 m 0 = size →
    rank = s.ww.fabric.rank → i < size → field (mapEntry m i) 11 0 = rank → (∀ j, j < i → field (mapEntry m j) 11 0 ≠ rank) →
    s'.coll.groups.length < 16 → ((s'.coll.groups.map fun g => g.members.length).foldl (· + ·) 0) + size ≤ 8192 →
    s'.ww.fabric.rank = s.ww.fabric.rank →
      ∃ t num g, exec (.joinGroup k) s = .next t ∧ num < 16 ∧ (∀ x ∈ s'.coll.groups, x.num ≠ num)
        ∧ g.num = num ∧ g.carrel = k ∧ g.map = m ∧ g.me = i ∧ g.timeoutMs = get32 m 4 ∧ g.layout = none ∧ g.failed = false
        ∧ g.members = (List.range size).map (fun j => (field (mapEntry m j) 11 0, field (mapEntry m j) 23 12))
        ∧ Replied s { s' with coll := { s'.coll with groups := s'.coll.groups ++ [g] }, freeCtr := t.freeCtr } t k c 0 0 0#32 (leBytes 2 num))
  ∧ (∀ (s s' : State) (k : Nat) (c : Carrel) (g : Group) (bytes : List Byte), Rung s k 0x51 14 c →
    let n := get32 (c.payload 14) 8
    n ≠ 0 → n ≤ 16384 → s.group? (get16 (c.payload 14) 12) = some g → s.groupBusy g.num = false →
    (∀ r ∈ g.layout.getD [], s.updating (get16 r 0) = false) → CommandReads s k (get64 (c.payload 14) 0) (64 * n) bytes s' →
    (∀ r ∈ chunks 64 n bytes, layoutBad s' r = none) →
      ∃ t, exec (.setBuckets k) s = .next t
        ∧ Replied s { s' with coll := { s'.coll with
            own := s'.coll.own.filter fun b => b.group != g.num
            groups := s'.coll.groups.map fun x =>
              if x.num = g.num then { x with layout := some (chunks 64 n bytes), nextIndex := 0, late := [] } else x } } t k c 0 0 0#32 [])
  ∧ (∀ (s : State) (k : Nat) (c : Carrel), Rung s k 0x52 2 c →
    let g := get16 (c.payload 2) 0
    (s.group? g).isSome = true →
    (s.groupBusy g = true → ∃ t, exec (.leaveGroup k) s = .next t ∧ Replied s (s.clearPend k) t k c 0xB 0 0#32 [])
    ∧ (s.groupBusy g = false → ∃ t, exec (.leaveGroup k) s = .next t ∧ Replied s { s.clearPend k with coll := t.coll } t k c 0 0 0#32 []
        ∧ t.coll.groups = (s.coll.groups.filter fun x => x.num != g) ∧ t.coll.inbound = s.coll.inbound ∧ t.coll.held = s.coll.held
        ∧ (∀ b ∈ t.coll.portBursts, b.group ≠ g) ∧ ∀ b ∈ t.coll.own, b.group ≠ g))
  ∧ (∀ (s : State) (k : Nat) (c : Carrel), Rung s k 0x58 12 c →
    let layer := get32 (c.payload 12) 8
    let va := get64 (c.payload 12) 0
    layer < 65536 →
    (s.updating layer = true → ∃ t, exec (.setSchedule k) s = .next t ∧ Replied s (s.clearPend k) t k c 0xB 0 0#32 [])
    ∧ (s.updating layer = false → va = 0 → ∃ t, exec (.setSchedule k) s = .next t
        ∧ Replied s { s.clearPend k with update := { s.update with
            schedule := s.update.schedule.filter fun e => e.layer != layer
            masks := s.update.masks.filter fun m => m.1 != layer } } t k c 0 0 0#32 [])
    ∧ ∀ (s' : State) (d : List Byte) (l : LayerLayout), s.updating layer = false → va ≠ 0 → CommandReads s k va 128 d s' →
        s'.layoutOf (Schedule.of d).group layer = some l → s'.scheduleBad d layer l = none →
        (s'.update.schedule.filter fun e => e.layer != layer).length < 16384 →
        ∃ t, exec (.setSchedule k) s = .next t
          ∧ Replied s { s' with update := { s'.update with schedule :=
              (s'.update.schedule.filter fun e => e.layer != layer) ++ [⟨layer, d, BitVec.ofNat 32 (get32 d 8)⟩] } } t k c 0 0 0#32 [])
  ∧ ∀ (s : State) (k : Nat) (c : Carrel) (e : ScheduleEntry), Rung s k 0x59 12 c →
    let layer := get32 (c.payload 12) 8
    let va := get64 (c.payload 12) 0
    s.schedule? layer = some e → s.updating layer = false →
    (va = 0 → ∃ t, exec (.setFreezeMask k) s = .next t
      ∧ Replied s { s.clearPend k with update := { s.update with masks := s.update.masks.filter fun m => m.1 != layer } } t k c 0 0 0#32 [])
    ∧ ∀ l, va ≠ 0 → s.layoutOf (Schedule.of e.bytes).group layer = some l →
        s.spanIn isTier .read va (ceilDiv ((Schedule.of e.bytes).maskBits l.elements) 8) = true →
        ∃ t, exec (.setFreezeMask k) s = .next t
          ∧ Replied s { s.clearPend k with update := { s.update with masks := (s.update.masks.filter fun m => m.1 != layer) ++ [(layer, va)] } }
              t k c 0 0 0#32 []

/-- R187 to R189, R251, R305, R306, R323, R324: SET_ROUTING and SET_LAYER_POLICY keep the record read; RELOAD_TABLE is accepted while no reload of its table is
under way, and takes effect bank by bank as each engine swaps. -/
def Obligations.RecordsAndTablesTakeEffect : Prop :=
  (∀ (s s' : State) (k : Nat) (c : Carrel) (d : List Byte), Rung s k 0x5C 8 c →
    (s.policyKind k ≠ some 1 → CommandReads s k (get64 (c.payload 8) 0) 32 d s' → ∀ a t1, setRoutingDevice d s' = (a, t1) →
      ∃ t, exec (.setRoutingDevice k) s = .next t ∧ Replied s t1 t k c a.status a.detail a.ticket a.payload
        ∧ (a.status = 0 → t1 = { s' with routing := { s'.routing with
            flowKey := if bitAt (get32 d 0) 4 then BitVec.ofNat 64 (get64 d 8) else s'.routing.flowKey
            spillVa := descAddr d 0x10
            spillEntries := get32 d 0x18
            free := s'.routing.free + get32 d 0x18 - s'.routing.spillEntries } })
        ∧ (a.status ≠ 0 → t1 = s'))
    ∧ (s.policyKind k = some 1 → CommandReads s k (get64 (c.payload 8) 0) 64 d s' → layerBad s.fuses.part d = false → s'.fuses = s.fuses →
        (get16 d 4 ≠ 0 → (s'.routing.layers.length < 4096) →
          ∃ t, exec (.setRoutingLayer k) s = .next t
            ∧ Replied s { s' with routing := { s'.routing with layers :=
                (s'.routing.layers.filter fun l => l.1 != field (get32 d 0) 31 16) ++ [(field (get32 d 0) 31 16, d)] } } t k c 0 0 0#32 [])
        ∧ (get16 d 4 = 0 → (∀ f ∈ s'.validFlows, f.layer ≠ field (get32 d 0) 31 16) →
          let rest := s'.routing.layers.filter fun l => l.1 != field (get32 d 0) 31 16
          ∃ t, exec (.setRoutingLayer k) s = .next t
            ∧ Replied s { s' with routing := { s'.routing with layers := rest } } t k c 0 0 0#32 [])))
  ∧ (∀ (s s' : State) (k : Nat) (c : Carrel) (d : List Byte), Rung s k 0x5E 12 c →
    let layer := get32 (c.payload 12) 8
    let others := s'.policies.filter fun p => p.layer != layer
    let w := get32 d 0
    layer < 65535 → CommandReads s k (get64 (c.payload 12) 0) 16 d s' →
    (field w 15 8 = 0 → ∃ t, exec (.setLayerPolicy k) s = .next t ∧ Replied s { s' with policies := others } t k c 0 0 0#32 [])
    ∧ (field w 15 8 ≠ 0 → policyBad d = true → ∃ t, exec (.setLayerPolicy k) s = .next t ∧ Replied s s' t k c 0x4 0 0#32 [])
    ∧ (field w 15 8 ≠ 0 → policyBad d = false → others.length < 16384 →
        ∃ t, exec (.setLayerPolicy k) s = .next t
          ∧ Replied s { s' with policies := others ++ [⟨layer, d, List.replicate 10 0, [], [], field w 3 0, field w 7 4, 0⟩] } t k c 0 0 0#32 []))
  ∧ (∀ (s s' : State) (k : Nat) (c : Carrel) (bytes : List Byte), Rung s k 0x22 14 c →
    let va := get64 (c.payload 14) 0
    let id := get16 (c.payload 14) 12
    let sh := tableShape id
    let es := (chunks sh.2 sh.1 bytes).map leNat
    va % 64 = 0 → 1 ≤ id → id ≤ 3 → get32 (c.payload 14) 8 = sh.1 →
    ((s.tables.table id).reload.isSome = true → ∃ t, exec (.reloadTable k) s = .next t ∧ Replied s (s.clearPend k) t k c 0xB 0 0#32 [])
    ∧ ((s.tables.table id).reload = none → CommandReads s k va (sh.1 * sh.2) bytes s' → (id = 3 → ∀ e ∈ es, stepBad e = false) →
        ∃ t r, exec (.reloadTable k) s = .next t ∧ (t.tables.table id).reload = some r ∧ r.data = es ∧ r.written = false
          ∧ r.carrel = some k ∧ (t.tables.table id).active = (s'.tables.table id).active
          ∧ (∀ j, (j = 1 ∨ j = 2 ∨ j = 3) → j ≠ id → t.tables.table j = s'.tables.table j) ∧ SameMemory s' t ∧ t.queues = s'.queues
          ∧ ∃ c', t.carrel? k = some c' ∧ c'.rspSeq = c.reqSeq ∧ c'.response.status = 1 ∧ c'.response.ticket = r.ticket))
  ∧ ∀ (s : State) (u : TableUser) (id : Nat) (r : Reload), 1 ≤ id → id ≤ 3 → (s.tables.table id).reload = some r → u ∈ r.left →
      s.userBusy u = false →
      (r.written = true ∨ ((s.boundBanks id).contains (!(s.tables.table id).active) = false ∧ ∀ k, r.carrel = some k → s.carrelFull k = false)) →
      ∃ t, exec (.bankSwap u id) s = .next t
        ∧ (t.tables.table id).active = (if r.written then (s.tables.table id).active else !(s.tables.table id).active)
        ∧ (r.written = false → (t.tables.table id).contents (t.tables.table id).active = some r.data
            ∧ (t.tables.table id).contents (!(t.tables.table id).active) = (s.tables.table id).contents (s.tables.table id).active)
        ∧ (t.tables.table id).reload = (if (r.left.filter fun x => x != u) = [] then none
            else some { r with written := true, left := r.left.filter fun x => x != u })
        ∧ (∀ j, (j = 1 ∨ j = 2 ∨ j = 3) → j ≠ id → t.tables.table j = s.tables.table j) ∧ t.mem = s.mem ∧ t.clusters = s.clusters
        ∧ t.queues = s.queues

/-! ## Injection, debug mode, identity, the Ledger, counters (R225, R480, R536 to R542, R546 to R557) -/

/-- R480, R540, R542, R557: each INJECT sets or clears its unit's setting, and SET_DEBUG the debug mode, unless LOCK forbids it. -/
def Obligations.InjectionAndDebugObeyLock : Prop :=
  (∀ (s : State) (c : Carrel), Rung s 0 0x70 16 c →
    let pl := c.payload 16
    let unit := get16 pl 0x0C
    let rate := get32 pl 0x08
    let mode := get8 pl 0x0F
    ∀ p ∈ [(Instr.injectWindway, 1), (.injectNearEcc, 2), (.injectDepositoryEcc, 3), (.injectSpine, 4), (.injectSram, 5)],
      get8 pl 0x0E = p.2 → rate ≤ 0x80000000 → unit < injectUnits s.fuses.part p.2 → mode ≤ (if p.2 = 1 then 4 else 2) →
      let others := s.injections.filter fun i => !(i.kind == p.2 && i.unit == unit)
      (s.bar0.lock.getLsbD 3 = true → ∃ t, exec p.1 s = .next t ∧ Replied s (s.clearPend 0) t 0 c 0xA 0 0#32 [])
      ∧ (s.bar0.lock.getLsbD 3 = false → (mode = 0 ∨ rate = 0) →
          ∃ t, exec p.1 s = .next t ∧ Replied s { s.clearPend 0 with injections := others } t 0 c 0 0 0#32 [])
      ∧ (s.bar0.lock.getLsbD 3 = false → mode ≠ 0 → rate ≠ 0 →
          ∃ t, exec p.1 s = .next t
            ∧ Replied s { s.clearPend 0 with
                injections := others ++ [⟨p.2, unit, BitVec.ofNat 64 (get64 pl 0), BitVec.ofNat 32 rate, mode, 0⟩]
                fw := { s.fw with injectEver := true } } t 0 c 0 0 0#32 []))
  ∧ ∀ (s : State) (c : Carrel), Rung s 0 0x78 1 c →
    let on := get8 (c.payload 1) 0
    on ≤ 1 →
    (s.bar0.lock.getLsbD 2 = true → ∃ t, exec .setDebug s = .next t ∧ Replied s (s.clearPend 0) t 0 c 0xA 0 0#32 [])
    ∧ (s.bar0.lock.getLsbD 2 = false → ∃ t, exec .setDebug s = .next t
        ∧ Replied s { s.clearPend 0 with fw := { s.fw with debugOn := on == 1, debugEver := s.fw.debugEver || on == 1 } } t 0 c 0 0 0#32 [])

/-- R225, R536 to R538, R548, R556: GET_IDENTITY answers the serial and the chain; ATTEST a signed report with the next report number; READ_LEDGER the records from a
number on; CLEAR_COUNTERS clears the blocks it names; DEBUG_READ, where debug mode is on, takes its place in the queue of its engine, and writes the tile when
its turn comes. -/
def Obligations.IdentityLedgerAndCountersAnswer : Prop :=
  (∀ (s : State) (c : Carrel), RungFirst s 0 0x80 4 c →
    let off := get32 (c.payload 4) 0
    (off ≤ s.chain.length → ∃ t, exec (.getIdentity true) s = .next t ∧ Replied s (s.clearPend 0) t 0 c 0 0 0#32
      (leBytes 12 s.fuses.serial.toNat ++ leBytes 4 s.chain.length ++ (s.chain.drop off).take 960))
    ∧ ∃ t n, exec (.getIdentity false) s = .next t ∧ Answered t 0 c 0x17 n 0#32 [] ∧ t.mem = s.mem ∧ t.queues = s.queues)
  ∧ (∀ (s : State) (c : Carrel), RungFirst s 0 0x81 52 c → get32 (c.payload 52) 0x30 ≤ 3 →
    ∃ t a b, exec (.attest true) s = .next t ∧ a.length = 48 ∧ b.length = 48
      ∧ Replied s { s.clearPend 0 with fw := { s.fw with reportSeq := s.fw.reportSeq + 1#32 } } t 0 c 0 0 0#32
          (s.reportBody (get32 (c.payload 52) 0x30) (s.fw.reportSeq + 1#32).toNat ((c.payload 52).take 48) ++ a ++ b))
  ∧ (∀ (s : State) (c : Carrel), RungFirst s 0 0x90 4 c →
    let start := get32 (c.payload 4) 0
    let got := (s.ledger.records.filter fun r => start ≤ recordNumber r).take 15
    ∃ t next gap, exec .readLedger s = .next t ∧ (∀ r, got.getLast? = some r → next = recordNumber r + 1) ∧ (got = [] → next = start)
      ∧ gap ≤ 1
      ∧ Replied s { s.clearPend 0 with ledger := { s.ledger with returned := t.ledger.returned } } t 0 c 0 0 0#32
          (leBytes 4 next ++ leBytes 4 (got.length + gap * 2 ^ 31) ++ got.flatMap fun r => r.flatMap fun w => leBytes 4 w.toNat))
  ∧ (∀ (s : State) (k : Nat) (c : Carrel), Rung s k 0x91 7 c →
    let scope := get32 (c.payload 7) 0
    let group := get16 (c.payload 7) 4
    let kind := get8 (c.payload 7) 6
    let hit := s.counterBlocks.filter fun b => b.scopeKind == kind && (group == 0xFFFF || b.group == group)
      && (scope == 0xFFFFFFFF || b.scope == scope)
    (hit.length = 0 → ∃ t, exec (.clearCounters k) s = .next t ∧ Replied s (s.clearPend k) t k c 0x4 0 0#32 [])
    ∧ (hit.length ≠ 0 → ∃ t, exec (.clearCounters k) s = .next t ∧ Answered t k c 0 0 0#32 [] ∧ t.mem = s.mem ∧ t.queues = s.queues
        ∧ t.ledger = s.ledger ∧ t.tr = s.tr
        ∧ ((∃ b ∈ hit, b.group = 1) → t.host = ⟨0#64, 0#64, 0#64, 0#64, 0#64, 0#64, 0#64⟩)
        ∧ ((∀ b ∈ hit, b.group ≠ 1) → t.host = s.host)
        ∧ ((∀ b ∈ hit, b.group ≠ 0x20) → t.memStacks = s.memStacks) ∧ ((∀ b ∈ hit, b.group ≠ 0x31) → t.spine = s.spine)))
  ∧ ∀ (s : State) (k : Nat) (c : Carrel) (g : Region) (cl : Cluster) (sp : Space) (o : Nat), Rung s k 0x79 12 c → Clean s → s.fw.debugOn = true →
    let pl := c.payload 12
    let e : ClusterId := ⟨get8 pl 10, get8 pl 11⟩
    let shape := field (get16 pl 8) 8 7
    let bytes := debugBytes s.freeCtr cl.matrix.acc g shape
    get16 pl 8 < 512 → e.cdie < s.fuses.part.c → e.cluster < 16 → s.cluster? e = some cl →
    region? (field (get16 pl 8) 6 5) (field (get16 pl 8) 4 0) shape = some g →
    (32 ≤ cl.matrix.queue.length → exec (.debugRead k) s = .next s)
    ∧ (cl.matrix.queue.length < 32 → (cl.matrix.active.isSome = true ∨ cl.matrix.queue ≠ []) →
        ∃ t w, exec (.debugRead k) s = .next t ∧ t.engineQueue (.matrix e) = cl.matrix.queue ++ [w] ∧ w.issuer = .debug k ∧ w.desc = pl
          ∧ w.urgent = false ∧ t.mem = s.mem ∧ t.carrels = s.carrels ∧ t.queues = s.queues)
    ∧ (cl.matrix.queue = [] → cl.matrix.active = none → cl.matrix.preempted = none → cl.matrix.held = [] →
        get64 pl 0 ≠ 0 → Lands s .device .write (get64 pl 0) bytes.length sp o →
        ∃ t, exec (.debugRead k) s = .next t ∧ Answered t k c 0 0 0#32 [] ∧ Stored s t sp o bytes ∧ t.clusters = s.clusters ∧ t.queues = s.queues)

/-! ## Firmware (R94 to R100, R122 to R126, R461 to R464, R524, R534, R546, R549) -/

/-- R95, R99, R461, R524, R534: LOAD_FIRMWARE starts an image that passes every check, and refuses another; bring-up ends READY, or SHORTFALL, with the fabric block in
force; the fabric block is read three times at most, and after that the fallback is in force. -/
def Obligations.FirmwareLoadsAndStarts : Prop :=
  (∀ (s : State) (h : HostView) (ok : Bool) (c : Carrel), s.carrel? 0 = some c → s.bar0.pend.getLsbD 0 = true → c.opcode = 1 →
    c.payloadLen = 24 → c.reqSeq = c.rspSeq + 1#32 → (s.fw.start = .romReady ∨ s.fw.start = .fwRejected) → s.fw.activation = .none →
    s.midRequest 0 = false → s.session.state = .detached →
    let pl := c.payload 24
    loadBad pl = none →
    (s.readsHeld = true → exec (.loadFirmware h ok) s = .next s)
    ∧ (∀ i l, s.readsHeld = false → s.readImage h ok (get64 pl 0) (get32 pl 8) (get64 pl 0x10) (get32 pl 0x0C) = .ok (i, l) →
      ∃ t, exec (.loadFirmware h ok) s = .next t ∧ Answered t 0 c 0 0 0#32 (leBytes 4 i.build.toNat ++ leBytes 4 i.uadin.toNat)
        ∧ t.fw.start = .fwStarting ∧ t.fw.running = some i ∧ t.fw.ak = s.deriveAk i ∧ t.fw.history = chunks 64 (l.length / 64) l
        ∧ t.mem = s.mem ∧ t.session = s.session)
    ∧ ∀ e, s.readsHeld = false → s.readImage h ok (get64 pl 0) (get32 pl 8) (get64 pl 0x10) (get32 pl 0x0C) = .error e →
      ∃ t, exec (.loadFirmware h ok) s = .next t ∧ Answered t 0 c e 0 0#32 [] ∧ t.fw.start = .fwRejected
        ∧ t.fw.detail = BitVec.ofNat 16 e ∧ t.fw.refused = s.fw.refused + 1#32 ∧ t.fw.running = s.fw.running ∧ t.mem = s.mem)
  ∧ (∀ (s : State) (r : StartReport), s.fw.start = .fwStarting → s.ledger.next = 0 → r.fatal = none →
    (∀ b, r.fabricBlock = some b → ∃ t, exec (.firmwareBringUp r) s = .next t ∧ (t.fw.start = .ready ∨ t.fw.start = .shortfall)
        ∧ t.fw.timeRuns = true ∧ t.tr.leaves = [] ∧ t.tr.ready = true ∧ t.tr.nearKey = r.nearKey ∧ t.tr.depKey = r.depKey
        ∧ t.routing.flowKey = r.flowKey ∧ t.fw.startId = r.startNumber ∧ t.session.orphanMs = 2000 ∧ t.ledger.next ≠ 0)
    ∧ (r.fabricBlock = none → ∃ t, exec (.firmwareBringUp r) s = .next t ∧ t.fw.start = .fwStarting ∧ t.fw.fabricTries = 1))
  ∧ ∀ s : State, s.fw.start = .fwStarting → s.fw.fabricTries ≠ 0 →
    (s.fw.fabricTries < 2 → exec (.fabricReadRetry none) s = .next { s with fw := { s.fw with fabricTries := s.fw.fabricTries + 1 } })
    ∧ (2 ≤ s.fw.fabricTries → ∃ t, exec (.fabricReadRetry none) s = .next t ∧ t.ww.fabric = Fabric.fallback
        ∧ (t.fw.start = .ready ∨ t.fw.start = .shortfall) ∧ t.ww.ports = s.ww.ports)
    ∧ ∀ b, crc32 (b.take 28) = get32 b 0x1C → (fabricOf b).valid s.fuses.part = true →
        ∃ t, exec (.fabricReadRetry (some b)) s = .next t ∧ t.ww.fabric = fabricOf b ∧ (t.fw.start = .ready ∨ t.fw.start = .shortfall)
          ∧ ∀ (p : Nat) (x : Port), s.port? p = some x →
              t.port? p = some { x with state := if (fabricOf b).portEn.getLsbD p then .training else .disabled }

/-- R122 to R126: STAGE_FIRMWARE keeps a checked image; ACTIVATE_FIRMWARE defers to the handover; while it lasts no ring is taken and no engine runs; it ends with the new
image, or, timed out, with the old one. -/
def Obligations.FirmwareIsReplaced : Prop :=
  (∀ (s : State) (h : HostView) (ok : Bool) (c : Carrel), Rung s 0 0x20 12 c → get64 (c.payload 12) 0 % 8 = 0 → get32 (c.payload 12) 8 ≠ 0 →
    get32 (c.payload 12) 8 ≤ 8192 →
    ((s.readsHeld = true ∨ s.carrelFull 0 = true) → exec (.stageFirmware h ok) s = .next s)
    ∧ (∀ i, s.readsHeld = false → s.carrelFull 0 = false → s.readStaged h ok (get64 (c.payload 12) 0) (get32 (c.payload 12) 8) = .ok i →
      ∃ t, exec (.stageFirmware h ok) s = .next t ∧ Answered t 0 c 1 0 c.nextTicket [] ∧ t.fw.staged = some i ∧ t.fw.running = s.fw.running
        ∧ t.fw.activation = (if s.fw.activation = .none then .staged else s.fw.activation) ∧ t.mem = s.mem ∧ t.queues = s.queues)
    ∧ ∀ e, s.readsHeld = false → s.carrelFull 0 = false → s.readStaged h ok (get64 (c.payload 12) 0) (get32 (c.payload 12) 8) = .error e →
      ∃ t, exec (.stageFirmware h ok) s = .next t ∧ Answered t 0 c 1 0 c.nextTicket [] ∧ t.fw.staged = s.fw.staged
        ∧ t.fw.refused = s.fw.refused + 1#32 ∧ t.mem = s.mem ∧ t.queues = s.queues)
  ∧ (∀ (s : State) (c : Carrel), Rung s 0 0x21 4 c →
    (s.fw.staged = none → ∃ t, exec .activateFirmware s = .next t ∧ Replied s (s.clearPend 0) t 0 c 0x6 0 0#32 [])
    ∧ (s.fw.staged.isSome = true → s.fw.pendingAct = none →
        ∃ t, exec .activateFirmware s = .next t ∧ Answered t 0 c 1 0 c.nextTicket []
          ∧ t.fw = { s.fw with activation := .deferred, pendingAct := some ⟨c.tag, c.nextTicket, get32 (c.payload 4) 0⟩ }
          ∧ t.mem = s.mem ∧ t.queues = s.queues))
  ∧ (∀ s : State, s.fw.activation = .deferred → s.fw.start = .ready → s.power.declared = [] →
    (s.carrelFull 0 = true → exec .handoverBegin s = .next s)
    ∧ (s.carrelFull 0 = false →
      ∃ t, exec .handoverBegin s = .next t ∧ t = { s with fw := { s.fw with activation := .handing, previous := s.fw.running } }
        ∧ t.takesRings = false ∧ t.enginesRun = false))
  ∧ (∀ (s : State) (i : Image), s.fw.activation = .handing → s.fw.staged = some i →
    ∃ t, exec .handoverComplete s = .next t ∧ t.fw.running = some i ∧ t.fw.staged = none ∧ t.fw.activation = .none
      ∧ t.fw.activations = s.fw.activations + 1#32 ∧ t.fw.ak = s.deriveAk i ∧ t.fw.pendingAct = none ∧ t.session = s.session
      ∧ (NothingHeld s = true → t.mem = s.mem ∧ t.queues = s.queues ∧ t.clusters = s.clusters))
  ∧ (∀ s : State, s.fw.activation = .handing →
    ∃ t, exec .handoverTimeout s = .next t ∧ t.fw.running = s.fw.previous ∧ t.fw.staged = s.fw.staged ∧ t.fw.activation = .staged
      ∧ t.fw.pendingAct = none ∧ t.session = s.session ∧ (NothingHeld s = true → t.mem = s.mem ∧ t.queues = s.queues ∧ t.clusters = s.clusters))
  ∧ ∀ (s : State) (a : PendingActivation) (elapsed : Nat), s.fw.pendingAct = some a → s.fw.activation = .deferred → a.deadlineS ≠ 0 →
      a.deadlineS ≤ elapsed →
      ∃ t, exec (.deferredTimeout elapsed) s = .next t ∧ t.fw.activation = .staged ∧ t.fw.pendingAct = none ∧ t.fw.running = s.fw.running
        ∧ t.fw.staged = s.fw.staged ∧ t.mem = s.mem ∧ t.queues = s.queues

/-! ## The vector engine (R258 to R317) -/

/-- R258 to R263, R271, R285, R287, R290: a vector instruction at the head of its queue whose descriptor is well formed and whose arrays lie in its cluster's own
memory runs through all its beats, and writes its destinations alone; one whose destination overlaps a source otherwise than exactly is undefined. -/
def Obligations.VectorInstructionsRunToTheirEnd : Prop :=
  ∀ (s : State) (e : ClusterId) (c : Cluster) (w : Work) (rest : List Work), s.cluster? e = some c → e.cdie < s.fuses.part.c →
    c.vector.active = none → c.vector.queue = w :: rest → s.engineFree w = true → c.tileReady w = true → Clean s →
    vecBad w.desc w.queued = none →
    let x := VecDesc.of w.desc
    ∀ p ∈ vectorCommands e, p.2.1 ≤ x.op → x.op ≤ p.2.2 →
      (x.overlaps w.desc = true → exec p.1 s = .fault .vectorOverlap)
      ∧ (x.overlaps w.desc = false → (∀ r ∈ x.arrays w.desc, AtHome e r) →
        ∃ t c' op, exec p.1 s = .next t ∧ t.cluster? e = some c' ∧ c'.vector.queue = rest ∧ c'.vector.active = some op ∧ op.work = w
          ∧ op.ended = some ⟨0, 0⟩ ∧ op.suspended = none ∧ op.nextBeat = ceilDiv x.count 256 ∧ c'.threads = c.threads ∧ EngineFrame s t
          ∧ (c.matrix.preempted = none → WroteOnly s t (x.destSpan :: x.extraSpans)))

/-! ## Matrix operations, drains, the conventional unit (R203 to R257) -/

/-- R204, R205, R209, R243: a matrix operation leaves the queue, streams every group and changes accumulators alone (with BIN_OUT: its bits); ADD into a word that no
operation wrote is undefined; an operation of class INPUT goes to the conventional unit; one in progress adds as many groups as it is given, none where an URGENT
entry is to pre-empt it (R254), and has an undefined result where what it reads has been written since (R241). -/
def Obligations.MatrixOperationsStreamTheirGroups : Prop :=
  (∀ (s : State) (e : ClusterId) (c : Cluster) (w : Work) (g : Region), s.cluster? e = some c → e.cdie < s.fuses.part.c →
    c.matrix.active = none → c.matrix.head? = some w → isDrain w.desc = false → w.isDebug = false → c.isRead w = false → s.engineFree w = true →
    matBad w.desc = none → Clean s →
    let x := MatDesc.of w.desc
    let bits := rowsSpan x.binOut x.binPitch x.m (ceilDiv x.k 8)
    (∀ u, x.cls = 0 → s.conv[e.cdie]? = some u → ∃ t, exec (.matmul e none) s = .next t
      ∧ t.conv[e.cdie]? = some ⟨u.ops ++ [⟨e, w, 0, Counts.zero, [], none, none, false⟩]⟩ ∧ SameMemory s t ∧ EngineFrame s t)
    ∧ (x.cls ≠ 0 → region? x.shape x.slot x.fmt = some g → 0 < x.m → 0 < x.n → 0 < x.k → (∀ r ∈ x.arrays w.desc, AtHome e r) →
        (x.add = false → (∀ v ∈ c.matrix.queue.drop 1, v.urgent = true → w.urgent = true) →
          (x.binOut = 0 ∨ ∀ r ∈ x.reads w.desc, bits.2 ≤ r.1 ∨ r.1 + r.2 ≤ bits.1) →
          ∃ t c' op, exec (.matmul e none) s = .next t ∧ t.cluster? e = some c' ∧ c'.matrix.active = some op ∧ op.work = w
          ∧ op.ended = some ⟨0, 0⟩ ∧ op.suspended = none ∧ op.next = ceilDiv x.k x.group ∧ c'.matrix.queue = c.matrix.queue.drop 1
          ∧ c'.vector = c.vector ∧ c'.threads = c.threads ∧ EngineFrame s t
          ∧ (c.matrix.preempted = none →
              WroteOnly s t (if x.binOut = 0 then [] else [bits])))
        ∧ (x.add = true → x.sparse = false → c.matrix.acc = [] → exec (.matmul e none) s = .fault .addIntoForeignWord)))
  ∧ ∀ (s : State) (e : ClusterId) (c : Cluster) (op : MatrixOp) (n : Nat) (g : Region), s.cluster? e = some c → e.cdie < s.fuses.part.c →
      c.matrix.active = some op → isDrain op.work.desc = false → op.suspended = none → op.ended = none → op.added ≠ [] →
      s.enginesRun = true → Clean s →
      let x := MatDesc.of op.work.desc
      region? x.shape x.slot x.fmt = some g →
      (s.viewHolds op.view = false → exec (.matmul e (some n)) s = .fault .operandWritten)
      ∧ (s.viewHolds op.view = true → x.add = false → x.binOut = 0 → (op.next + n) * x.group < x.k →
          (∀ r ∈ x.arrays op.work.desc, AtHome e r) →
          ∃ t c' op', exec (.matmul e (some n)) s = .next t ∧ t.cluster? e = some c' ∧ c'.matrix.active = some op' ∧ op'.work = op.work
            ∧ op'.next = (if c.preempts op then op.next else op.next + n) ∧ op'.ended = none ∧ op'.suspended = none
            ∧ (c.preempts op = true → c'.matrix.acc = c.matrix.acc) ∧ c'.matrix.queue = c.matrix.queue ∧ c'.vector = c.vector
            ∧ c'.threads = c.threads ∧ SameMemory s t ∧ EngineFrame s t)

/-- R213 to R220, R243: a drain at the head of the queue writes every row and nothing outside its outputs; an INPUT operation writes OUT alone,
and has an undefined result where what it reads has been written while it was suspended (R241). -/
def Obligations.DrainsAndInputsWriteTheirRows : Prop :=
  (∀ (s : State) (e : ClusterId) (c : Cluster) (w : Work), s.cluster? e = some c → e.cdie < s.fuses.part.c →
    c.matrix.active = none → c.matrix.head? = some w → isDrain w.desc = true → w.isDebug = false → s.engineFree w = true →
    drainBad w.desc = none → Clean s →
    let x := DrainDesc.of w.desc
    (∀ i, i < x.tiles → (x.tile i).isSome = true) → (∀ r ∈ x.arrays w.desc, AtHome e r) →
      ∃ t c' op, exec (.drain e) s = .next t ∧ t.cluster? e = some c' ∧ c'.matrix.active = some op ∧ op.work = w
        ∧ op.ended = some ⟨0, 0⟩ ∧ op.suspended = none ∧ op.next = x.tiles * x.size.1 ∧ c'.matrix.queue = c.matrix.queue.drop 1
        ∧ c'.vector = c.vector ∧ c'.threads = c.threads ∧ EngineFrame s t
        ∧ (c.matrix.preempted = none → c'.matrix.acc = c.matrix.acc ∧ WroteOnly s t x.outputs))
  ∧ ∀ (s : State) (d : Nat) (u : ConvUnit) (op : ConvOp) (rest : List ConvOp), s.conv[d]? = some u → u.ops = op :: rest → op.ended = none →
      op.suspended = none → s.enginesRun = true → d < s.fuses.part.c → op.cluster.cdie = d → op.cluster.cluster < 16 → Clean s →
      let x := MatDesc.of op.work.desc
      (s.viewHolds op.view = false → exec (.inputOperation d) s = .fault .operandWritten)
      ∧ (s.viewHolds op.view = true → x.cls = 0 → 0 < x.k → op.nextRow ≤ x.m → (∀ r ∈ x.arrays op.work.desc, AtHome op.cluster r) →
        ∃ t u' op', exec (.inputOperation d) s = .next t ∧ t.conv[d]? = some u' ∧ u'.ops = op' :: rest ∧ op'.work = op.work
          ∧ op'.ended = some ⟨0, 0⟩ ∧ op'.suspended = none ∧ op'.nextRow = x.m
          ∧ WroteOnly s t [rowsSpan x.block x.blockPitch x.m (4 * x.n)] ∧ t.clusters = s.clusters ∧ EngineFrame s t)

/-- R223, R254 to R256: an URGENT entry at the head pre-empts the NORMAL operation that runs or is suspended, whose places are spilled only where the two footprints meet, and
then held beside those held before; it comes back with its places once no URGENT entry is left and the held places are released. -/
def Obligations.PreemptionKeepsTheTile : Prop :=
  (∀ (s : State) (e : ClusterId) (c : Cluster) (op : MatrixOp) (w : Work) (rest : List Work), s.cluster? e = some c →
    c.matrix.active = some op → c.matrix.queue = w :: rest → w.urgent = true → op.work.urgent = false →
    (op.ended = none ∨ op.suspended ≠ none) → c.matrix.preempted = none → c.matrix.spilled = none →
    ∃ t c', exec (.preemption e) s = .next t ∧ t.cluster? e = some c' ∧ c'.matrix.active = none ∧ c'.matrix.preempted = some op
      ∧ c'.matrix.queue = c.matrix.queue ∧ c'.preemptions = c.preemptions + 1#64 ∧ c'.vector = c.vector ∧ c'.threads = c.threads
      ∧ EngineFrame s t
      ∧ (regionsMeet w.footprint (footprint op.work.desc) = false →
          c'.matrix.spilled = none ∧ c'.matrix.held = c.matrix.held ∧ c'.matrix.acc = c.matrix.acc ∧ t.mem = s.mem)
      ∧ (regionsMeet w.footprint (footprint op.work.desc) = true →
          c'.matrix.spilled = some (c.matrix.acc.filter (inRegions (footprint op.work.desc))) ∧ c'.spills = c.spills + 1#64
            ∧ (∀ p, p ∈ c'.matrix.held ↔ p ∈ c.matrix.held ∨ p ∈ (footprint op.work.desc).flatMap Region.places)
            ∧ ∀ sp a, (sp = .loc → a < e.index * 2 ^ 25 + 0xFD0000 ∨ e.index * 2 ^ 25 + 0x1000000 ≤ a) → t.byteAt sp a = s.byteAt sp a))
  ∧ ∀ (s : State) (e : ClusterId) (c : Cluster) (op : MatrixOp), s.cluster? e = some c → c.matrix.preempted = some op →
      c.matrix.active = none → (∀ w ∈ c.matrix.queue, w.urgent = false) → (c.matrix.spilled = none ∨ c.matrix.held = []) →
      s.enginesRun = true →
      ∃ t c', exec (.preemptedResume e) s = .next t ∧ t.cluster? e = some c' ∧ c'.matrix.active = some op ∧ c'.matrix.preempted = none
        ∧ c'.matrix.spilled = none ∧ c'.matrix.queue = c.matrix.queue ∧ c'.vector = c.vector ∧ c'.threads = c.threads ∧ t.mem = s.mem
        ∧ EngineFrame s t
        ∧ c'.matrix.acc = (match c.matrix.spilled with
            | some l => (c.matrix.acc.filter fun p => !inRegions (footprint op.work.desc) p) ++ l
            | none => c.matrix.acc)

/-- R229 to R231, R281 to R284, R339: an operation that has ended writes its status record, alone, leaves its engine, and is no longer outstanding. -/
def Obligations.EndedOperationsWriteTheirRecord : Prop :=
  (∀ (s : State) (e : ClusterId) (c : Cluster) (op : VectorOp) (x : Ending), s.cluster? e = some c → c.vector.active = some op →
    op.ended = some x → op.suspended = none → Clean s → RecordFits s (VecDesc.of op.work.desc).status 96 →
    ∃ t c', exec (.vectorEnd e) s = .next t ∧ t.cluster? e = some c' ∧ c'.vector.active = none ∧ c'.vector.queue = c.vector.queue
      ∧ c'.vectorOps = c.vectorOps + 1#64 ∧ c'.matrix = c.matrix ∧ Recorded s t (VecDesc.of op.work.desc).status 96 x.status x.detail
      ∧ Finished t op.work)
  ∧ (∀ (s : State) (e : ClusterId) (c : Cluster) (op : MatrixOp) (x : Ending), s.cluster? e = some c → c.matrix.active = some op →
    op.ended = some x → op.suspended = none → Clean s → RecordFits s (descAddr op.work.desc 0x88) 96 →
    ∀ p ∈ [(Instr.matmulEnd e, false), (.drainEnd e, true)], isDrain op.work.desc = p.2 →
      ((MatDesc.of op.work.desc).stepEnd = false ∨ s.policy? (MatDesc.of op.work.desc).layer = none ∨ p.2 = true) →
      ∃ t c', exec p.1 s = .next t ∧ t.cluster? e = some c' ∧ c'.matrix.active = none ∧ c'.matrix.queue = c.matrix.queue
        ∧ c'.matrix.acc = c.matrix.acc ∧ c'.matrixOps = c.matrixOps + 1#64 ∧ c'.vector = c.vector
        ∧ Recorded s t (descAddr op.work.desc 0x88) 96 x.status x.detail ∧ Finished t op.work)
  ∧ (∀ (s : State) (d : Nat) (u : ConvUnit) (op : ConvOp) (rest : List ConvOp) (x : Ending), s.conv[d]? = some u → u.ops = op :: rest →
    op.ended = some x → op.suspended = none → Clean s → RecordFits s (MatDesc.of op.work.desc).status 96 →
    (op.stepped = true ∨ (MatDesc.of op.work.desc).stepEnd = false ∨ s.policy? (MatDesc.of op.work.desc).layer = none) →
    ∃ t, exec (.inputOperationEnd d) s = .next t ∧ t.conv[d]? = some ⟨rest⟩
      ∧ Recorded s t (MatDesc.of op.work.desc).status 96 x.status x.detail ∧ Finished t op.work)
  ∧ ∀ (s : State) (xd : Nat) (r : RoutingEngine) (op : RoutingOp) (x : Ending), s.router? xd = some r → r.active = some op →
      op.ended = some x → op.suspended = none → Clean s → RecordFits s (RouteDesc.of op.work.desc).status 64 →
      ∃ t, exec (.routingEnd xd) s = .next t ∧ t.router? xd = some { r with active := none }
        ∧ Recorded s t (RouteDesc.of op.work.desc).status 64 x.status x.detail ∧ Finished t op.work ∧ t.routing.table = s.routing.table
        ∧ t.routing.layers = s.routing.layers

/-! ## DMA (R373 to R377) -/

/-- R374 to R376: a copy whose source and destination are in the device's memory and do not meet copies every byte, in order, and writes nothing else; overlapping
addresses are undefined; the end writes the progress record and completes the item. -/
def Obligations.DmaCopiesEveryByte : Prop :=
  (∀ (s : State) (num xd en : Nat) (q : Queue) (it : Item) (src dst len prog : Nat), s.offered num = some (q, it) →
    it.work = .dma src dst len prog → xd < s.fuses.part.x → en < 4 → s.job? xd en = none → (s.dma[4 * xd + en]?).isSome = true →
    (src < dst + len → dst < src + len → exec (.dmaStart num xd en) s = .fault .dmaOverlap)
    ∧ ∀ (sp sp' : Space) (o o' : Nat), ¬ (src < dst + len ∧ dst < src + len) → prog = 0 → Clean s →
        Maps s .device .read src len sp o → Maps s .device .write dst len sp' o' → (sp ≠ sp' ∨ o + len ≤ o' ∨ o' + len ≤ o) →
        ∃ t j, exec (.dmaStart num xd en) s = .next t ∧ t.job? xd en = some j ∧ j.ended = some ⟨0, 0⟩ ∧ j.bytesDone = len ∧ j.uid = it.uid
          ∧ Stored s t sp' o' ((List.range len).map fun i => s.byteAt sp (o + i)) ∧ t.carrels = s.carrels ∧ t.bar0 = s.bar0
          ∧ t.clusters = s.clusters)
  ∧ ∀ (s : State) (xd en : Nat) (j : DmaJob) (x : Ending), s.job? xd en = some j → j.ended = some x → Clean s →
      (j.progress = 0 ∨ ∃ sp o, Lands s .device .write j.progress 32 sp o) →
      ∃ t, exec (.dmaEnd xd en) s = .next t ∧ t.job? xd en = none
        ∧ (j.progress = 0 → SameMemory s t)
        ∧ (∀ sp o, j.progress ≠ 0 → Lands s .device .write j.progress 32 sp o → Stored s t sp o
            (leBytes 4 j.next ++ leBytes 4 (if x.status = 0 then 2 else 3) ++ leBytes 4 0 ++ zeros 4 ++ leBytes 8 j.bytesDone ++ zeros 8))
        ∧ (∀ q it, t.queue? j.queue = some q → it ∈ q.items → it.uid = j.uid → ∃ lo hi, it.state = .ended x.status x.detail lo hi)
        ∧ t.clusters = s.clusters

/-! ## Routing (R319 to R339) -/

/-- R325 to R336: a ROUTE whose tokens find room runs to its end; one of a batch routed before, or that finds no room, is refused; one whose predecessor has not
ended is held, where the hold has a place, and begins once it may. -/
def Obligations.RoutesRunWaitOrAreRefused : Prop :=
  (∀ (s : State) (xd : Nat) (e : RoutingEngine) (w : Work) (rest : List Work) (d : List Byte), s.router? xd = some e → e.active = none →
    e.queue = w :: rest → s.enginesRun = true → s.mayStart w = true → routeBad w.desc (s.expertsOf w.desc) = none →
    let x := RouteDesc.of w.desc
    x.mode = 0 → s.layerRecord x.layer = some d →
    (s.flowExists x = true → ∃ t, exec (.route xd) s = .next t ∧ RouteRefused s t xd w rest e.hold 0x0113)
    ∧ (s.flowExists x = false → s.mustWait x = true →
        (e.hold.length < 16 → ∃ t, exec (.route xd) s = .next t ∧ t.router? xd = some { e with queue := rest, hold := e.hold ++ [w] }
          ∧ t.routing = s.routing ∧ t.mem = s.mem ∧ EngineFrame s t)
        ∧ (16 ≤ e.hold.length → ∃ t, exec (.route xd) s = .next t ∧ RouteRefused s t xd w rest e.hold 0x0114))
    ∧ (s.flowExists x = false → s.mustWait x = false →
        (s.routing.free < x.tokens → ∃ t, exec (.route xd) s = .next t ∧ RouteRefused s t xd w rest e.hold 0x0110)
        ∧ (x.tokens ≤ s.routing.free → FlowRoom s → s.routing.spillEntries = 0 → Clean s → layerBad s.fuses.part d = false →
            (LayerRec.of d).experts ≠ 0 → RouteReaches s x (LayerRec.of d) →
            ∃ t, exec (.route xd) s = .next t ∧ RouteRan s t xd w (LayerRec.of d) rest e.hold)))
  ∧ ∀ (s : State) (xd : Nat) (e : RoutingEngine) (w : Work) (rest : List Work) (d : List Byte), s.router? xd = some e → e.active = none →
      e.hold = w :: rest → (∀ v ∈ rest, v.uid ≠ w.uid) → s.enginesRun = true →
      let x := RouteDesc.of w.desc
      s.layerRecord x.layer = some d → s.mustWait x = false →
      (s.flowExists x = true → ∃ t, exec (.routeHoldRelease xd) s = .next t ∧ RouteRefused s t xd w e.queue rest 0x0113)
      ∧ (s.flowExists x = false → s.routing.free < x.tokens →
          ∃ t, exec (.routeHoldRelease xd) s = .next t ∧ RouteRefused s t xd w e.queue rest 0x0110)
      ∧ (s.flowExists x = false → x.tokens ≤ s.routing.free → FlowRoom s → s.routing.spillEntries = 0 → Clean s →
          layerBad s.fuses.part d = false → (LayerRec.of d).experts ≠ 0 → RouteReaches s x (LayerRec.of d) →
          ∃ t, exec (.routeHoldRelease xd) s = .next t ∧ RouteRan s t xd w (LayerRec.of d) e.queue rest)

/-- R335, R336: RECALL writes the row indices of every token's entry, and all ones where there is none; RELEASE frees the entries that it finds, and writes no
memory. -/
def Obligations.RecallsReadAndReleasesFree : Prop :=
  ∀ (s : State) (xd : Nat) (e : RoutingEngine) (w : Work) (rest : List Work) (d : List Byte), s.router? xd = some e → e.active = none →
    e.queue = w :: rest → s.enginesRun = true → s.mayStart w = true → routeBad w.desc (s.expertsOf w.desc) = none →
    let x := RouteDesc.of w.desc
    let r := LayerRec.of d
    let found := (List.range x.tokens).filter fun i => (s.entryOf x i).isSome
    s.layerRecord x.layer = some d → TableSound s x →
    (∀ sp o, x.mode = 1 → Clean s → r.k ≠ 0 → (∀ f ∈ s.routing.table, f.layer = x.layer → f.k = r.k) →
        Maps s .device .write x.combine (4 * (x.tokens * r.k)) sp o →
        ∃ t op, exec (.recall xd) s = .next t ∧ t.router? xd = some { e with queue := rest, active := some op } ∧ op.work = w
          ∧ op.routed = found.length ∧ op.missing = x.tokens - found.length ∧ op.suspended = none
          ∧ op.ended = some (if found.length = x.tokens then ⟨0, 0⟩ else ⟨0x0112, 0⟩)
          ∧ Stored s t sp o ((List.range x.tokens).flatMap fun i => recallWords r (s.entryOf x i))
          ∧ t.routing = s.routing ∧ EngineFrame s t)
    ∧ (x.mode = 2 →
        ∃ t op, exec (.release xd) s = .next t ∧ t.router? xd = some { e with queue := rest, active := some op } ∧ op.work = w
          ∧ op.routed = found.length ∧ op.missing = x.tokens - found.length ∧ op.ended = some ⟨0, 0⟩ ∧ op.suspended = none
          ∧ t.routing.table = s.routing.table.filter (fun f => !(List.range x.tokens).any fun i => s.entryOf x i == some f)
          ∧ t.routing.free = s.routing.free + found.length ∧ t.routing.layers = s.routing.layers ∧ t.routing.counts = s.routing.counts
          ∧ t.mem = s.mem ∧ EngineFrame s t)

/-! ## Reductions (R402 to R427) -/

/-- R402 to R408, R426: a GRADIENT REDUCE of the group's next layer compresses every block (new errors, bucket bytes), writes ERR and CBUF alone, and then waits for
its results; one that came out of order ends OUT_OF_ORDER; a STATS REDUCE sends its records, at member 0 into STAGE. -/
def Obligations.ReductionsCompressAndSend : Prop :=
  (∀ (s : State) (x : Nat) (c : ConsortEngine) (w : Work) (rest : List Work) (g : Group), s.consort? x = some c → c.active = none →
    c.queue = w :: rest → (∀ v ∈ rest, v.uid ≠ w.uid) → s.enginesRun = true → s.mayStart w = true → Quiet s → Clean s →
    reduceBad s.fuses.part w.desc = none →
    let d := ReduceDesc.of w.desc
    let l := g.layer d.index
    d.stats = false → (s.arrivals d.group).group? d.group = some g → g.layout ≠ none → g.failed = false →
    (w.uid ∈ g.late → RecordFits s d.status 64 →
      ∃ t, exec (.reduceGradient x) s = .next t ∧ t.consort? x = some { c with queue := rest } ∧ Recorded s t d.status 64 0x0143 0
        ∧ Finished t w ∧ (t.group? d.group).map (fun h => h.late) = some (g.late.erase w.uid))
    ∧ ∀ (sg se : Space) (og oe : Nat), w.uid ∉ g.late → s.updating l.layer = false → d.trigger = 0 → 0 < l.elements → 0 < l.perBucket →
      Maps s .device .read l.grad (l.elements * l.gradBytes) sg og →
      Maps s .device .read l.err (4 * l.elements) se oe → Maps s .device .write l.err (4 * l.elements) se oe →
      Reachable s .read (l.cbuf, l.cbuf + l.buckets * l.slot) → Reachable s .write (l.cbuf, l.cbuf + l.buckets * l.slot) →
      ∃ t op, exec (.reduceGradient x) s = .next t ∧ t.consort? x = some { c with queue := rest, active := none, running := [op] }
        ∧ op.work = w ∧ op.begun = true ∧ op.next = l.blocks ∧ op.suspended = none ∧ op.aborted = none ∧ op.ended = none
        ∧ (t.group? d.group).map (fun h => (h.nextIndex, h.late)) = some (g.nextIndex, g.late)
        ∧ WritesWithin s t [(l.err, l.err + 4 * l.elements), (l.cbuf, l.cbuf + l.buckets * l.slot)]
        ∧ ((sg ≠ se ∨ og + l.elements * l.gradBytes ≤ oe ∨ oe + 4 * l.elements ≤ og) →
            (∀ v o sp, l.cbuf ≤ v → v < l.cbuf + l.buckets * l.slot → Lands s .device .write v 1 sp o →
              (sp ≠ sg ∨ o < og ∨ og + l.elements * l.gradBytes ≤ o) ∧ (sp ≠ se ∨ o < oe ∨ oe + 4 * l.elements ≤ o)) →
            ∀ q, q < l.blocks →
              let p := blockOf s (s.antilogBank op.bank) l sg se og oe q
              (List.range (4 * p.errs.length)).map (fun i => t.byteAt se (oe + 1024 * q + i)) = p.errs.flatMap (leBytes 4))
        ∧ t.bar0 = s.bar0 ∧ t.carrels = s.carrels ∧ t.clusters = s.clusters ∧ t.update = s.update)
  ∧ (∀ (s : State) (w : Work) (g : Group), (∃ c ∈ s.consorts, w ∈ c.queue) →
      (∀ c ∈ s.consorts, ∀ v ∈ c.queue, v = w ∨ reducesGroup g.num v.desc = false) → s.group? g.num = some g → g.layout ≠ none →
      reducesGroup g.num w.desc = true → (ReduceDesc.of w.desc).stats = false → reduceBad s.fuses.part w.desc = none → g.seen ≤ w.uid →
      ∃ h, (s.arrivals g.num).group? g.num = some h ∧ h = { g with seen := h.seen, nextIndex := h.nextIndex, late := h.late }
        ∧ ((ReduceDesc.of w.desc).index = g.nextIndex → h.late = g.late ∧ h.nextIndex = (g.nextIndex + 1) % (g.layout.getD []).length)
        ∧ ((ReduceDesc.of w.desc).index ≠ g.nextIndex → h.late = g.late ++ [w.uid] ∧ h.nextIndex = g.nextIndex))
  ∧ ∀ (s : State) (x : Nat) (c : ConsortEngine) (w : Work) (rest : List Work) (g : Group), s.consort? x = some c → c.active = none →
      c.queue = w :: rest → (∀ v ∈ rest, v.uid ≠ w.uid) → s.enginesRun = true → s.mayStart w = true → Quiet s → Clean s →
      reduceBad s.fuses.part w.desc = none →
      let d := ReduceDesc.of w.desc
      d.stats = true → s.group? d.group = some g → (∀ h ∈ s.coll.groups, h.num = g.num → h = g) → g.layout ≠ none → g.failed = false →
      d.trigger = 0 →
      ∀ (sp : Space) (o : Nat), Maps s .device .read d.src (32 * d.index) sp o →
        let recs := (List.range (32 * d.index)).map fun i => s.byteAt sp (o + i)
        (g.me ≠ 0 → ∃ t op, exec (.reduceStats x) s = .next t
          ∧ t.consort? x = some { c with queue := rest, active := none, running := [op] } ∧ op.work = w ∧ op.begun = true
          ∧ op.ended = none ∧ op.suspended = none ∧ SameMemory s t ∧ (g.spent 0 + 32 * d.index ≤ g.window → op.outgoing = [])
          ∧ t.bar0 = s.bar0 ∧ t.carrels = s.carrels ∧ t.clusters = s.clusters ∧ t.update = s.update)
        ∧ ∀ (sp' : Space) (o' : Nat), g.me = 0 → 2 ≤ g.size → s.coll.gathers = [] → s.groupOfCrc g.crc = some g →
            Maps s .device .write d.stage (32 * d.index) sp' o' →
            ∃ t op, exec (.reduceStats x) s = .next t
              ∧ t.consort? x = some { c with queue := rest, active := none, running := [op] } ∧ op.work = w ∧ op.outgoing = []
              ∧ op.ended = none ∧ op.suspended = none ∧ Stored s t sp' o' recs ∧ t.coll.held = []
              ∧ t.bar0 = s.bar0 ∧ t.carrels = s.carrels ∧ t.clusters = s.clusters ∧ t.update = s.update

/-- R409 to R415, R424: a burst that its port admits takes one contribution more, and the last one of a bucket of one burst writes the bucket's results to SUM; one that
is not admitted is refused, and offered again later; a group that waits too long becomes FAILED, and its REDUCEs end. -/
def Obligations.BurstsAreSummedAtTheirPort : Prop :=
  (∀ (s : State) (x num source : Nat) (g : Group) (b : InBucket) (j m : Nat) (l : LayerLayout) (c : Contribution), s.group? num = some g →
    g.failed = false → source < g.size →
    (s.coll.inbound.find? fun b => b.crc == g.crc && b.src == g.rankOf source) = some b → g.find b.bucket = some (j, l, m) →
    l.xdie = x → b.bucket % g.size = g.me → Quiet s →
    let u := b.admitted
    let port := s.portOf l m u
    let now := (Group.own? s g b.bucket).rounds
    let round := now + (s.coll.portBursts.filter fun q =>
      q.group == num && q.bucket == b.bucket && q.burst == u && q.got.any fun k => k.source == source).length
    let p := (s.portBurst? num round b.bucket u).getD ⟨port.1, port.2, num, round, b.bucket, u, [], none⟩
    u < l.burstsIn m → b.contribution g source (l.blocksIn m) u = some c →
    let free := s.admits g p c
    ∀ k ∈ [(Instr.accumulateBurst x num source, false), (.burstReoffer x num source, true)],
      s.coll.refused.contains (num, source) = k.2 →
      (free = false → ∃ t, exec k.1 s = .next t
        ∧ t.coll = { s.coll with refused := if k.2 then s.coll.refused else s.coll.refused ++ [(num, source)] }
        ∧ t.mem = s.mem ∧ t.clusters = s.clusters ∧ t.bar0 = s.bar0 ∧ t.carrels = s.carrels ∧ t.update = s.update)
      ∧ (free = true → c.aborted = false → p.suspended = none →
          ∀ sp o, Maps s .device .atomic (l.burstVa m u) (min 16 (l.elementsIn m - 16 * u) * l.resBytes) sp o →
          (p.got.length + 1 < g.size → ∃ t, exec k.1 s = .next t ∧ t.portBurst? num round b.bucket u = some { p with got := p.got ++ [c] }
            ∧ (num, source) ∉ t.coll.refused ∧ t.coll.groups = s.coll.groups
            ∧ (u + 1 = l.burstsIn m → t.coll.inbound = s.coll.inbound.erase b) ∧ t.clusters = s.clusters ∧ t.update = s.update
            ∧ (round = now → t.coll.own = s.coll.own ∧ t.mem = s.mem ∧ t.bar0 = s.bar0 ∧ t.carrels = s.carrels))
          ∧ (Clean s → p.got.length + 1 = g.size → l.burstsIn m = 1 → round = now →
              (∀ q ∈ s.coll.portBursts, q.group = num → q.bucket = b.bucket → q.round = now) → (Group.own? s g b.bucket).aborted = false →
              (Group.own? s g b.bucket).written = [] → (∀ q ∈ p.got, q.aborted = false ∧ q.badLayout = false) →
              ∃ t, exec k.1 s = .next t ∧ Stored s t sp o (burstResult g l m u (p.got ++ [c])).bytes
                ∧ t.portBurst? num now b.bucket u = none ∧ (Group.own? t g b.bucket).rounds = now + 1
                ∧ t.coll.groups = s.coll.groups ∧ t.clusters = s.clusters ∧ t.update = s.update)))
  ∧ ∀ (s : State) (num : Nat) (g : Group), s.group? num = some g → g.timeoutMs ≠ 0 → g.failed = false → s.groupWaits g = true →
      ∃ t, exec (.groupTimeout num) s = .next t ∧ t.group? num = some { g with failed := true } ∧ t.coll.inbound = s.coll.inbound
        ∧ ∀ x c, t.consort? x = some c → (∀ w ∈ c.queue, reducesGroup num w.desc = false) ∧ (∀ op, c.active = some op → op.group ≠ num)
            ∧ ∀ op ∈ c.running, op.group = num → op.ended = some ⟨0x0141, 0⟩

/-- R415, R426, R475, R476: bytes of a BUCKET enter the owner's hold; a GRANT returns window; a RESULT is written to SUM, a STATS_OUT to DST, of the REDUCE that waits
for it, and is dropped where none does; a STATS_IN waits for its REDUCE. -/
def Obligations.CollectiveFramesAreTakenIn : Prop :=
  (∀ (s : State) (p : Nat) (f : Frame), ForThisRank s p f 5 →
    (f.tag = 0#32 → ∃ t, exec (.wwBucket p f) s = .next t
      ∧ t.coll = { s.coll with inbound := s.coll.inbound ++ [⟨f.low, f.src, f.high.toNat, f.arg1, f.payload, 0⟩] }
      ∧ t.mem = s.mem ∧ t.clusters = s.clusters ∧ t.carrels = s.carrels ∧ t.bar0 = s.bar0)
    ∧ ∀ (l r : List InBucket) (b : InBucket), f.tag ≠ 0#32 → s.coll.inbound = l ++ b :: r → b.crc = f.low → b.src = f.src →
        b.bucket = f.high.toNat → b.bytes.length = f.tag.toNat →
        (∀ a ∈ l ++ r, ¬ (a.crc = b.crc ∧ a.src = b.src ∧ a.bucket = b.bucket ∧ a.bytes.length = b.bytes.length)) →
        ∃ t, exec (.wwBucket p f) s = .next t
          ∧ t.coll = { s.coll with inbound := l ++ { b with bytes := b.bytes ++ f.payload } :: r }
          ∧ t.mem = s.mem ∧ t.clusters = s.clusters ∧ t.carrels = s.carrels ∧ t.bar0 = s.bar0)
  ∧ (∀ (s : State) (p i : Nat) (f : Frame) (g : Group), ForThisRank s p f 6 → Quiet s → s.groupOfCrc f.low = some g →
      s.group? g.num = some g → g.rank? f.src = some i →
      ∃ t, exec (.wwGrant p f) s = .next t ∧ t.group? g.num = some (g.setSpent i (g.spent i - f.arg1.toNat))
        ∧ t.coll.inbound = s.coll.inbound ∧ t.mem = s.mem ∧ t.clusters = s.clusters ∧ t.carrels = s.carrels ∧ t.bar0 = s.bar0)
  ∧ (∀ (s : State) (p : Nat) (f : Frame), Quiet s →
      ∀ c ∈ [(Instr.wwResult p f, 7, false), (.wwStatsIn p f, 8, true), (.wwStatsOut p f, 9, false)], ForThisRank s p f c.2.1 →
        ∃ t, exec c.1 s = .next t
          ∧ t.coll = (if c.2.2 then { s.coll with held := [⟨f.type, f.low, f.src, f.high, f.tag, f.arg1, f.payload, some (p, f.vc), false⟩] } else s.coll)
          ∧ t.mem = s.mem ∧ t.clusters = s.clusters ∧ t.carrels = s.carrels ∧ t.bar0 = s.bar0)
  ∧ ∀ (s : State) (p : Nat) (f : Frame) (g : Group) (op : ReduceOp) (sp : Space) (o : Nat), s.reduces = [op] → s.coll.held = [] →
      op.outgoing = [] → op.suspended = none → op.ended = none → s.groupOfCrc f.low = some g → g.failed = false → op.group = g.num →
      s.group? g.num = some g → (∀ h ∈ s.coll.groups, h.num = g.num → h = g) → Clean s →
      (∀ (j m : Nat) (l : LayerLayout), ForThisRank s p f 7 → f.tag = 0#32 → op.stats = false → op.layerPos = j →
          g.find f.high.toNat = some (j, l, m) → op.arrived.contains f.high.toNat = false → field (get16 f.payload 6) 3 2 = 0 →
          let n := l.elementsIn m * l.resBytes
          0 < n → n + 16 ≤ f.payload.length → op.arrived.length + 1 < (g.layer j).buckets →
          Maps s .device .write (l.sum + m * 256 * l.perBucket * l.resBytes) n sp o →
          ∃ t op', exec (.wwResult p f) s = .next t ∧ t.reduces = [op'] ∧ op'.work = op.work
            ∧ op'.arrived = insertNat f.high.toNat op.arrived ∧ op'.ended = none ∧ t.coll = s.coll
            ∧ Stored s t sp o ((f.payload.drop 16).take n) ∧ t.clusters = s.clusters ∧ t.carrels = s.carrels ∧ t.bar0 = s.bar0)
      ∧ (ForThisRank s p f 9 → op.stats = true → g.me ≠ 0 → f.high.toNat % 16 = 0 →
          let n := f.payload.length / 16
          op.arrived.length + n < (ReduceDesc.of op.work.desc).index →
          Maps s .device .write ((ReduceDesc.of op.work.desc).dst + 16 * f.tag.toNat) f.payload.length sp o →
          ∃ t op', exec (.wwStatsOut p f) s = .next t ∧ t.reduces = [op'] ∧ op'.work = op.work
            ∧ op'.arrived = op.arrived ++ (List.range n).map (fun i => f.tag.toNat + i) ∧ op'.ended = none ∧ t.coll = s.coll
            ∧ Stored s t sp o f.payload ∧ t.clusters = s.clusters ∧ t.carrels = s.carrels ∧ t.bar0 = s.bar0)

/-! ## Parameter update (R430 to R455) -/

/-- R432, R447 to R455: an update that R448 skips ends without touching memory; one that runs works through every granule, writes its arrays alone and counts every
element once; LAMB's second pass follows its layer sums; the end writes the record, signals DONE_WORD and sets LAST_STEP. -/
def Obligations.UpdatesRunAndEnd : Prop :=
  (∀ (s : State) (layer : Nat) (op : UpdateOp) (e : ScheduleEntry) (l : LayerLayout), s.update? layer = some op →
    s.schedule? layer = some e → op.stopped = [] → op.ended = none → s.enginesRun = true → s.layoutOf op.group layer = some l →
    let x := Schedule.of e.bytes
    let n := l.elements
    let arrays := (x.arrays n).map fun a => (a.2.2.1, a.2.2.1 + a.2.2.2)
    s.scheduleBad e.bytes layer l = none →
    (op.started = false → s.carrelFull op.carrel = true → exec (.updateStart layer) s = .next s)
    ∧ (op.started = false → s.carrelFull op.carrel = false → ∀ y, op.skips e = some y → ∃ t, exec (.updateStart layer) s = .next t
        ∧ t.update? layer = some { op with started := true, ended := some y } ∧ t.mem = s.mem ∧ t.clusters = s.clusters ∧ t.coll = s.coll
        ∧ t.update.schedule = s.update.schedule ∧ t.update.ops.length = s.update.ops.length)
    ∧ (op.started = false → s.carrelFull op.carrel = false → op.skips e = none → s.updateOverlaps layer x l = true → exec (.updateStart layer) s = .fault .updateOverlap)
    ∧ (op.started = false → s.carrelFull op.carrel = false → op.skips e = none → s.updateOverlaps layer x l = false → Clean s →
        x.twoPass = false → op.pass = 1 →
        op.next = 0 → op.ahead = [] → op.updated = 0 → op.frozen = 0 → op.untouched = 0 → op.nonfinite = 0 → s.update.masks = [] →
        (∀ r ∈ arrays, Reachable s .atomic r) → Reachable s .atomic (l.sum, l.sum + n * l.resBytes) →
        ∃ t op', exec (.updateStart layer) s = .next t ∧ t.update? layer = some op' ∧ op'.started = true ∧ op'.ended = none
          ∧ op'.stopped = [] ∧ op'.next = x.granules n ∧ op'.ahead = [] ∧ op'.frozen = 0
          ∧ op'.updated + op'.untouched + op'.nonfinite = n ∧ WritesWithin s t arrays ∧ t.clusters = s.clusters ∧ t.coll = s.coll
          ∧ t.update.schedule = s.update.schedule ∧ t.carrels = s.carrels ∧ t.bar0 = s.bar0)
    ∧ (op.started = true → x.rule = 2 → op.pass = 1 → x.granules n ≤ op.next → op.updated = 0 → op.frozen = 0 → op.untouched = 0 →
        op.nonfinite = 0 → LayerLayout.of op.layout = l → Clean s → s.update.masks = [] → (∀ r ∈ arrays, Reachable s .atomic r) →
        Reachable s .atomic (l.sum, l.sum + n * l.resBytes) →
        ∃ t op', exec (.updatePass2 layer) s = .next t ∧ t.update? layer = some op' ∧ op'.pass = 2 ∧ op'.ended = none
          ∧ op'.stopped = [] ∧ op'.next = x.granules n
          ∧ op'.trust = BitVec.ofNat 32 (if wPos (pairWord (op.sum 0)) && wPos (pairWord (op.sum 1))
              then wDiv (wSqrt (pairWord (op.sum 0))) (wSqrt (pairWord (op.sum 1))) else 0x3F800000)
          ∧ op'.updated + op'.untouched + op'.nonfinite = n ∧ WritesWithin s t arrays ∧ t.clusters = s.clusters ∧ t.coll = s.coll
          ∧ t.update.schedule = s.update.schedule ∧ t.carrels = s.carrels ∧ t.bar0 = s.bar0))
  ∧ ∀ (s : State) (layer : Nat) (op : UpdateOp) (e : ScheduleEntry) (y : Ending) (rest : List UpdateOp), s.schedule? layer = some e →
      s.update.ops = op :: rest → op.layer = layer → op.started = true → op.stopped = [] → op.ended = some y → op.recorded = false →
      Clean s →
      let x := Schedule.of e.bytes
      let last (t : State) : Prop := t.update.ops = rest
        ∧ t.update.schedule = (if y.status = 0 then updIf (fun z => z.layer == layer) (fun z => { z with lastStep := op.step }) s.update.schedule
            else s.update.schedule)
        ∧ t.clusters = s.clusters ∧ t.coll = s.coll
      (RecordFits s x.status 96 → x.done = 0 →
        ∃ t, exec (.updateEnd layer) s = .next t ∧ Recorded s t x.status 96 y.status y.detail ∧ last t)
      ∧ ∀ sp o, x.status = 0 → x.done ≠ 0 → isTier sp = true → Lands s .device .atomic x.done 8 sp o →
          ∃ t, exec (.updateEnd layer) s = .next t ∧ last t
            ∧ Stored s t sp o (leBytes 8 (BitVec.ofNat 64 (leNat ((List.range 8).map fun i => s.byteAt sp (o + i))) + 1#64).toNat)
end

