-- ==== Sys2Proof/Laws/State.lean ====
section
/-! SUPPORT. What each update of State leaves alone: one lemma per field and update, true by rfl. -/

namespace Sys2Proof.Machine


/-! ## fixed -/

@[simp] theorem State.fixed_pins (s t : State) : (s.fixed t).pins = t.pins := rfl
@[simp] theorem State.fixed_link (s t : State) : (s.fixed t).link = t.link := rfl
@[simp] theorem State.fixed_cfg (s t : State) : (s.fixed t).cfg = t.cfg := rfl
@[simp] theorem State.fixed_bar0 (s t : State) : (s.fixed t).bar0 = t.bar0 := rfl
@[simp] theorem State.fixed_carrels (s t : State) : (s.fixed t).carrels = t.carrels := rfl
@[simp] theorem State.fixed_session (s t : State) : (s.fixed t).session = t.session := rfl
@[simp] theorem State.fixed_fw (s t : State) : (s.fixed t).fw = t.fw := rfl
@[simp] theorem State.fixed_catalogue (s t : State) : (s.fixed t).catalogue = t.catalogue := rfl
@[simp] theorem State.fixed_phys (s t : State) : (s.fixed t).phys = t.phys := rfl
@[simp] theorem State.fixed_ledger (s t : State) : (s.fixed t).ledger = t.ledger := rfl
@[simp] theorem State.fixed_mem (s t : State) : (s.fixed t).mem = t.mem := rfl
@[simp] theorem State.fixed_memStacks (s t : State) : (s.fixed t).memStacks = t.memStacks := rfl
@[simp] theorem State.fixed_tr (s t : State) : (s.fixed t).tr = t.tr := rfl
@[simp] theorem State.fixed_queues (s t : State) : (s.fixed t).queues = t.queues := rfl
@[simp] theorem State.fixed_clusters (s t : State) : (s.fixed t).clusters = t.clusters := rfl
@[simp] theorem State.fixed_conv (s t : State) : (s.fixed t).conv = t.conv := rfl
@[simp] theorem State.fixed_routers (s t : State) : (s.fixed t).routers = t.routers := rfl
@[simp] theorem State.fixed_routing (s t : State) : (s.fixed t).routing = t.routing := rfl
@[simp] theorem State.fixed_dma (s t : State) : (s.fixed t).dma = t.dma := rfl
@[simp] theorem State.fixed_hostReads (s t : State) : (s.fixed t).hostReads = t.hostReads := rfl
@[simp] theorem State.fixed_faults (s t : State) : (s.fixed t).faults = t.faults := rfl
@[simp] theorem State.fixed_faultWait (s t : State) : (s.fixed t).faultWait = t.faultWait := rfl
@[simp] theorem State.fixed_faultSeq (s t : State) : (s.fixed t).faultSeq = t.faultSeq := rfl
@[simp] theorem State.fixed_tables (s t : State) : (s.fixed t).tables = t.tables := rfl
@[simp] theorem State.fixed_policies (s t : State) : (s.fixed t).policies = t.policies := rfl
@[simp] theorem State.fixed_consorts (s t : State) : (s.fixed t).consorts = t.consorts := rfl
@[simp] theorem State.fixed_coll (s t : State) : (s.fixed t).coll = t.coll := rfl
@[simp] theorem State.fixed_update (s t : State) : (s.fixed t).update = t.update := rfl
@[simp] theorem State.fixed_ww (s t : State) : (s.fixed t).ww = t.ww := rfl
@[simp] theorem State.fixed_power (s t : State) : (s.fixed t).power = t.power := rfl
@[simp] theorem State.fixed_injections (s t : State) : (s.fixed t).injections = t.injections := rfl
@[simp] theorem State.fixed_spine (s t : State) : (s.fixed t).spine = t.spine := rfl
@[simp] theorem State.fixed_host (s t : State) : (s.fixed t).host = t.host := rfl
@[simp] theorem State.fixed_nextUid (s t : State) : (s.fixed t).nextUid = t.nextUid := rfl
@[simp] theorem State.fixed_freeCtr (s t : State) : (s.fixed t).freeCtr = t.freeCtr := rfl
@[simp] theorem State.fixed_out (s t : State) : (s.fixed t).out = t.out := rfl

/-! ## latched -/

@[simp] theorem State.latched_fuses (s t : State) : (s.latched t).fuses = t.fuses := rfl
@[simp] theorem State.latched_pins (s t : State) : (s.latched t).pins = t.pins := rfl
@[simp] theorem State.latched_link (s t : State) : (s.latched t).link = t.link := rfl
@[simp] theorem State.latched_cfg (s t : State) : (s.latched t).cfg = t.cfg := rfl
@[simp] theorem State.latched_carrels (s t : State) : (s.latched t).carrels = t.carrels := rfl
@[simp] theorem State.latched_session (s t : State) : (s.latched t).session = t.session := rfl
@[simp] theorem State.latched_catalogue (s t : State) : (s.latched t).catalogue = t.catalogue := rfl
@[simp] theorem State.latched_phys (s t : State) : (s.latched t).phys = t.phys := rfl
@[simp] theorem State.latched_ledger (s t : State) : (s.latched t).ledger = t.ledger := rfl
@[simp] theorem State.latched_mem (s t : State) : (s.latched t).mem = t.mem := rfl
@[simp] theorem State.latched_memStacks (s t : State) : (s.latched t).memStacks = t.memStacks := rfl
@[simp] theorem State.latched_tr (s t : State) : (s.latched t).tr = t.tr := rfl
@[simp] theorem State.latched_queues (s t : State) : (s.latched t).queues = t.queues := rfl
@[simp] theorem State.latched_clusters (s t : State) : (s.latched t).clusters = t.clusters := rfl
@[simp] theorem State.latched_conv (s t : State) : (s.latched t).conv = t.conv := rfl
@[simp] theorem State.latched_routers (s t : State) : (s.latched t).routers = t.routers := rfl
@[simp] theorem State.latched_routing (s t : State) : (s.latched t).routing = t.routing := rfl
@[simp] theorem State.latched_dma (s t : State) : (s.latched t).dma = t.dma := rfl
@[simp] theorem State.latched_hostReads (s t : State) : (s.latched t).hostReads = t.hostReads := rfl
@[simp] theorem State.latched_faults (s t : State) : (s.latched t).faults = t.faults := rfl
@[simp] theorem State.latched_faultWait (s t : State) : (s.latched t).faultWait = t.faultWait := rfl
@[simp] theorem State.latched_faultSeq (s t : State) : (s.latched t).faultSeq = t.faultSeq := rfl
@[simp] theorem State.latched_tables (s t : State) : (s.latched t).tables = t.tables := rfl
@[simp] theorem State.latched_policies (s t : State) : (s.latched t).policies = t.policies := rfl
@[simp] theorem State.latched_consorts (s t : State) : (s.latched t).consorts = t.consorts := rfl
@[simp] theorem State.latched_coll (s t : State) : (s.latched t).coll = t.coll := rfl
@[simp] theorem State.latched_update (s t : State) : (s.latched t).update = t.update := rfl
@[simp] theorem State.latched_ww (s t : State) : (s.latched t).ww = t.ww := rfl
@[simp] theorem State.latched_power (s t : State) : (s.latched t).power = t.power := rfl
@[simp] theorem State.latched_injections (s t : State) : (s.latched t).injections = t.injections := rfl
@[simp] theorem State.latched_spine (s t : State) : (s.latched t).spine = t.spine := rfl
@[simp] theorem State.latched_host (s t : State) : (s.latched t).host = t.host := rfl
@[simp] theorem State.latched_nextUid (s t : State) : (s.latched t).nextUid = t.nextUid := rfl
@[simp] theorem State.latched_freeCtr (s t : State) : (s.latched t).freeCtr = t.freeCtr := rfl
@[simp] theorem State.latched_out (s t : State) : (s.latched t).out = t.out := rfl
@[simp] theorem State.latched_pending (s t : State) : (s.latched t).pending = t.pending := rfl

/-! ## setStore -/

@[simp] theorem State.setStore_fuses (s : State) (sp : Space) (st : Store) : (s.setStore sp st).fuses = s.fuses := rfl
@[simp] theorem State.setStore_pins (s : State) (sp : Space) (st : Store) : (s.setStore sp st).pins = s.pins := rfl
@[simp] theorem State.setStore_link (s : State) (sp : Space) (st : Store) : (s.setStore sp st).link = s.link := rfl
@[simp] theorem State.setStore_cfg (s : State) (sp : Space) (st : Store) : (s.setStore sp st).cfg = s.cfg := rfl
@[simp] theorem State.setStore_bar0 (s : State) (sp : Space) (st : Store) : (s.setStore sp st).bar0 = s.bar0 := rfl
@[simp] theorem State.setStore_carrels (s : State) (sp : Space) (st : Store) : (s.setStore sp st).carrels = s.carrels := rfl
@[simp] theorem State.setStore_session (s : State) (sp : Space) (st : Store) : (s.setStore sp st).session = s.session := rfl
@[simp] theorem State.setStore_fw (s : State) (sp : Space) (st : Store) : (s.setStore sp st).fw = s.fw := rfl
@[simp] theorem State.setStore_catalogue (s : State) (sp : Space) (st : Store) : (s.setStore sp st).catalogue = s.catalogue := rfl
@[simp] theorem State.setStore_phys (s : State) (sp : Space) (st : Store) : (s.setStore sp st).phys = s.phys := rfl
@[simp] theorem State.setStore_ledger (s : State) (sp : Space) (st : Store) : (s.setStore sp st).ledger = s.ledger := rfl
@[simp] theorem State.setStore_memStacks (s : State) (sp : Space) (st : Store) : (s.setStore sp st).memStacks = s.memStacks := rfl
@[simp] theorem State.setStore_tr (s : State) (sp : Space) (st : Store) : (s.setStore sp st).tr = s.tr := rfl
@[simp] theorem State.setStore_queues (s : State) (sp : Space) (st : Store) : (s.setStore sp st).queues = s.queues := rfl
@[simp] theorem State.setStore_clusters (s : State) (sp : Space) (st : Store) : (s.setStore sp st).clusters = s.clusters := rfl
@[simp] theorem State.setStore_conv (s : State) (sp : Space) (st : Store) : (s.setStore sp st).conv = s.conv := rfl
@[simp] theorem State.setStore_routers (s : State) (sp : Space) (st : Store) : (s.setStore sp st).routers = s.routers := rfl
@[simp] theorem State.setStore_routing (s : State) (sp : Space) (st : Store) : (s.setStore sp st).routing = s.routing := rfl
@[simp] theorem State.setStore_dma (s : State) (sp : Space) (st : Store) : (s.setStore sp st).dma = s.dma := rfl
@[simp] theorem State.setStore_hostReads (s : State) (sp : Space) (st : Store) : (s.setStore sp st).hostReads = s.hostReads := rfl
@[simp] theorem State.setStore_faults (s : State) (sp : Space) (st : Store) : (s.setStore sp st).faults = s.faults := rfl
@[simp] theorem State.setStore_faultWait (s : State) (sp : Space) (st : Store) : (s.setStore sp st).faultWait = s.faultWait := rfl
@[simp] theorem State.setStore_faultSeq (s : State) (sp : Space) (st : Store) : (s.setStore sp st).faultSeq = s.faultSeq := rfl
@[simp] theorem State.setStore_tables (s : State) (sp : Space) (st : Store) : (s.setStore sp st).tables = s.tables := rfl
@[simp] theorem State.setStore_policies (s : State) (sp : Space) (st : Store) : (s.setStore sp st).policies = s.policies := rfl
@[simp] theorem State.setStore_consorts (s : State) (sp : Space) (st : Store) : (s.setStore sp st).consorts = s.consorts := rfl
@[simp] theorem State.setStore_coll (s : State) (sp : Space) (st : Store) : (s.setStore sp st).coll = s.coll := rfl
@[simp] theorem State.setStore_update (s : State) (sp : Space) (st : Store) : (s.setStore sp st).update = s.update := rfl
@[simp] theorem State.setStore_ww (s : State) (sp : Space) (st : Store) : (s.setStore sp st).ww = s.ww := rfl
@[simp] theorem State.setStore_power (s : State) (sp : Space) (st : Store) : (s.setStore sp st).power = s.power := rfl
@[simp] theorem State.setStore_injections (s : State) (sp : Space) (st : Store) : (s.setStore sp st).injections = s.injections := rfl
@[simp] theorem State.setStore_spine (s : State) (sp : Space) (st : Store) : (s.setStore sp st).spine = s.spine := rfl
@[simp] theorem State.setStore_host (s : State) (sp : Space) (st : Store) : (s.setStore sp st).host = s.host := rfl
@[simp] theorem State.setStore_nextUid (s : State) (sp : Space) (st : Store) : (s.setStore sp st).nextUid = s.nextUid := rfl
@[simp] theorem State.setStore_freeCtr (s : State) (sp : Space) (st : Store) : (s.setStore sp st).freeCtr = s.freeCtr := rfl
@[simp] theorem State.setStore_out (s : State) (sp : Space) (st : Store) : (s.setStore sp st).out = s.out := rfl
@[simp] theorem State.setStore_pending (s : State) (sp : Space) (st : Store) : (s.setStore sp st).pending = s.pending := rfl

/-! ## modCluster -/

@[simp] theorem State.modCluster_fuses (s : State) (e : ClusterId) (f : Cluster → Cluster) : (s.modCluster e f).fuses = s.fuses := rfl
@[simp] theorem State.modCluster_pins (s : State) (e : ClusterId) (f : Cluster → Cluster) : (s.modCluster e f).pins = s.pins := rfl
@[simp] theorem State.modCluster_link (s : State) (e : ClusterId) (f : Cluster → Cluster) : (s.modCluster e f).link = s.link := rfl
@[simp] theorem State.modCluster_cfg (s : State) (e : ClusterId) (f : Cluster → Cluster) : (s.modCluster e f).cfg = s.cfg := rfl
@[simp] theorem State.modCluster_bar0 (s : State) (e : ClusterId) (f : Cluster → Cluster) : (s.modCluster e f).bar0 = s.bar0 := rfl
@[simp] theorem State.modCluster_carrels (s : State) (e : ClusterId) (f : Cluster → Cluster) : (s.modCluster e f).carrels = s.carrels := rfl
@[simp] theorem State.modCluster_session (s : State) (e : ClusterId) (f : Cluster → Cluster) : (s.modCluster e f).session = s.session := rfl
@[simp] theorem State.modCluster_fw (s : State) (e : ClusterId) (f : Cluster → Cluster) : (s.modCluster e f).fw = s.fw := rfl
@[simp] theorem State.modCluster_catalogue (s : State) (e : ClusterId) (f : Cluster → Cluster) : (s.modCluster e f).catalogue = s.catalogue := rfl
@[simp] theorem State.modCluster_phys (s : State) (e : ClusterId) (f : Cluster → Cluster) : (s.modCluster e f).phys = s.phys := rfl
@[simp] theorem State.modCluster_ledger (s : State) (e : ClusterId) (f : Cluster → Cluster) : (s.modCluster e f).ledger = s.ledger := rfl
@[simp] theorem State.modCluster_mem (s : State) (e : ClusterId) (f : Cluster → Cluster) : (s.modCluster e f).mem = s.mem := rfl
@[simp] theorem State.modCluster_memStacks (s : State) (e : ClusterId) (f : Cluster → Cluster) : (s.modCluster e f).memStacks = s.memStacks := rfl
@[simp] theorem State.modCluster_tr (s : State) (e : ClusterId) (f : Cluster → Cluster) : (s.modCluster e f).tr = s.tr := rfl
@[simp] theorem State.modCluster_queues (s : State) (e : ClusterId) (f : Cluster → Cluster) : (s.modCluster e f).queues = s.queues := rfl
@[simp] theorem State.modCluster_conv (s : State) (e : ClusterId) (f : Cluster → Cluster) : (s.modCluster e f).conv = s.conv := rfl
@[simp] theorem State.modCluster_routers (s : State) (e : ClusterId) (f : Cluster → Cluster) : (s.modCluster e f).routers = s.routers := rfl
@[simp] theorem State.modCluster_routing (s : State) (e : ClusterId) (f : Cluster → Cluster) : (s.modCluster e f).routing = s.routing := rfl
@[simp] theorem State.modCluster_dma (s : State) (e : ClusterId) (f : Cluster → Cluster) : (s.modCluster e f).dma = s.dma := rfl
@[simp] theorem State.modCluster_hostReads (s : State) (e : ClusterId) (f : Cluster → Cluster) : (s.modCluster e f).hostReads = s.hostReads := rfl
@[simp] theorem State.modCluster_faults (s : State) (e : ClusterId) (f : Cluster → Cluster) : (s.modCluster e f).faults = s.faults := rfl
@[simp] theorem State.modCluster_faultWait (s : State) (e : ClusterId) (f : Cluster → Cluster) : (s.modCluster e f).faultWait = s.faultWait := rfl
@[simp] theorem State.modCluster_faultSeq (s : State) (e : ClusterId) (f : Cluster → Cluster) : (s.modCluster e f).faultSeq = s.faultSeq := rfl
@[simp] theorem State.modCluster_tables (s : State) (e : ClusterId) (f : Cluster → Cluster) : (s.modCluster e f).tables = s.tables := rfl
@[simp] theorem State.modCluster_policies (s : State) (e : ClusterId) (f : Cluster → Cluster) : (s.modCluster e f).policies = s.policies := rfl
@[simp] theorem State.modCluster_consorts (s : State) (e : ClusterId) (f : Cluster → Cluster) : (s.modCluster e f).consorts = s.consorts := rfl
@[simp] theorem State.modCluster_coll (s : State) (e : ClusterId) (f : Cluster → Cluster) : (s.modCluster e f).coll = s.coll := rfl
@[simp] theorem State.modCluster_update (s : State) (e : ClusterId) (f : Cluster → Cluster) : (s.modCluster e f).update = s.update := rfl
@[simp] theorem State.modCluster_ww (s : State) (e : ClusterId) (f : Cluster → Cluster) : (s.modCluster e f).ww = s.ww := rfl
@[simp] theorem State.modCluster_power (s : State) (e : ClusterId) (f : Cluster → Cluster) : (s.modCluster e f).power = s.power := rfl
@[simp] theorem State.modCluster_injections (s : State) (e : ClusterId) (f : Cluster → Cluster) : (s.modCluster e f).injections = s.injections := rfl
@[simp] theorem State.modCluster_spine (s : State) (e : ClusterId) (f : Cluster → Cluster) : (s.modCluster e f).spine = s.spine := rfl
@[simp] theorem State.modCluster_host (s : State) (e : ClusterId) (f : Cluster → Cluster) : (s.modCluster e f).host = s.host := rfl
@[simp] theorem State.modCluster_nextUid (s : State) (e : ClusterId) (f : Cluster → Cluster) : (s.modCluster e f).nextUid = s.nextUid := rfl
@[simp] theorem State.modCluster_freeCtr (s : State) (e : ClusterId) (f : Cluster → Cluster) : (s.modCluster e f).freeCtr = s.freeCtr := rfl
@[simp] theorem State.modCluster_out (s : State) (e : ClusterId) (f : Cluster → Cluster) : (s.modCluster e f).out = s.out := rfl
@[simp] theorem State.modCluster_pending (s : State) (e : ClusterId) (f : Cluster → Cluster) : (s.modCluster e f).pending = s.pending := rfl

/-! ## modThread -/

@[simp] theorem State.modThread_fuses (s : State) (t : ThreadId) (f : Thread → Thread) : (s.modThread t f).fuses = s.fuses := rfl
@[simp] theorem State.modThread_pins (s : State) (t : ThreadId) (f : Thread → Thread) : (s.modThread t f).pins = s.pins := rfl
@[simp] theorem State.modThread_link (s : State) (t : ThreadId) (f : Thread → Thread) : (s.modThread t f).link = s.link := rfl
@[simp] theorem State.modThread_cfg (s : State) (t : ThreadId) (f : Thread → Thread) : (s.modThread t f).cfg = s.cfg := rfl
@[simp] theorem State.modThread_bar0 (s : State) (t : ThreadId) (f : Thread → Thread) : (s.modThread t f).bar0 = s.bar0 := rfl
@[simp] theorem State.modThread_carrels (s : State) (t : ThreadId) (f : Thread → Thread) : (s.modThread t f).carrels = s.carrels := rfl
@[simp] theorem State.modThread_session (s : State) (t : ThreadId) (f : Thread → Thread) : (s.modThread t f).session = s.session := rfl
@[simp] theorem State.modThread_fw (s : State) (t : ThreadId) (f : Thread → Thread) : (s.modThread t f).fw = s.fw := rfl
@[simp] theorem State.modThread_catalogue (s : State) (t : ThreadId) (f : Thread → Thread) : (s.modThread t f).catalogue = s.catalogue := rfl
@[simp] theorem State.modThread_phys (s : State) (t : ThreadId) (f : Thread → Thread) : (s.modThread t f).phys = s.phys := rfl
@[simp] theorem State.modThread_ledger (s : State) (t : ThreadId) (f : Thread → Thread) : (s.modThread t f).ledger = s.ledger := rfl
@[simp] theorem State.modThread_mem (s : State) (t : ThreadId) (f : Thread → Thread) : (s.modThread t f).mem = s.mem := rfl
@[simp] theorem State.modThread_memStacks (s : State) (t : ThreadId) (f : Thread → Thread) : (s.modThread t f).memStacks = s.memStacks := rfl
@[simp] theorem State.modThread_tr (s : State) (t : ThreadId) (f : Thread → Thread) : (s.modThread t f).tr = s.tr := rfl
@[simp] theorem State.modThread_queues (s : State) (t : ThreadId) (f : Thread → Thread) : (s.modThread t f).queues = s.queues := rfl
@[simp] theorem State.modThread_conv (s : State) (t : ThreadId) (f : Thread → Thread) : (s.modThread t f).conv = s.conv := rfl
@[simp] theorem State.modThread_routers (s : State) (t : ThreadId) (f : Thread → Thread) : (s.modThread t f).routers = s.routers := rfl
@[simp] theorem State.modThread_routing (s : State) (t : ThreadId) (f : Thread → Thread) : (s.modThread t f).routing = s.routing := rfl
@[simp] theorem State.modThread_dma (s : State) (t : ThreadId) (f : Thread → Thread) : (s.modThread t f).dma = s.dma := rfl
@[simp] theorem State.modThread_hostReads (s : State) (t : ThreadId) (f : Thread → Thread) : (s.modThread t f).hostReads = s.hostReads := rfl
@[simp] theorem State.modThread_faults (s : State) (t : ThreadId) (f : Thread → Thread) : (s.modThread t f).faults = s.faults := rfl
@[simp] theorem State.modThread_faultWait (s : State) (t : ThreadId) (f : Thread → Thread) : (s.modThread t f).faultWait = s.faultWait := rfl
@[simp] theorem State.modThread_faultSeq (s : State) (t : ThreadId) (f : Thread → Thread) : (s.modThread t f).faultSeq = s.faultSeq := rfl
@[simp] theorem State.modThread_tables (s : State) (t : ThreadId) (f : Thread → Thread) : (s.modThread t f).tables = s.tables := rfl
@[simp] theorem State.modThread_policies (s : State) (t : ThreadId) (f : Thread → Thread) : (s.modThread t f).policies = s.policies := rfl
@[simp] theorem State.modThread_consorts (s : State) (t : ThreadId) (f : Thread → Thread) : (s.modThread t f).consorts = s.consorts := rfl
@[simp] theorem State.modThread_coll (s : State) (t : ThreadId) (f : Thread → Thread) : (s.modThread t f).coll = s.coll := rfl
@[simp] theorem State.modThread_update (s : State) (t : ThreadId) (f : Thread → Thread) : (s.modThread t f).update = s.update := rfl
@[simp] theorem State.modThread_ww (s : State) (t : ThreadId) (f : Thread → Thread) : (s.modThread t f).ww = s.ww := rfl
@[simp] theorem State.modThread_power (s : State) (t : ThreadId) (f : Thread → Thread) : (s.modThread t f).power = s.power := rfl
@[simp] theorem State.modThread_injections (s : State) (t : ThreadId) (f : Thread → Thread) : (s.modThread t f).injections = s.injections := rfl
@[simp] theorem State.modThread_spine (s : State) (t : ThreadId) (f : Thread → Thread) : (s.modThread t f).spine = s.spine := rfl
@[simp] theorem State.modThread_host (s : State) (t : ThreadId) (f : Thread → Thread) : (s.modThread t f).host = s.host := rfl
@[simp] theorem State.modThread_nextUid (s : State) (t : ThreadId) (f : Thread → Thread) : (s.modThread t f).nextUid = s.nextUid := rfl
@[simp] theorem State.modThread_freeCtr (s : State) (t : ThreadId) (f : Thread → Thread) : (s.modThread t f).freeCtr = s.freeCtr := rfl
@[simp] theorem State.modThread_out (s : State) (t : ThreadId) (f : Thread → Thread) : (s.modThread t f).out = s.out := rfl
@[simp] theorem State.modThread_pending (s : State) (t : ThreadId) (f : Thread → Thread) : (s.modThread t f).pending = s.pending := rfl

/-! ## modMatrix -/

@[simp] theorem State.modMatrix_fuses (s : State) (e : ClusterId) (f : MatrixEngine → MatrixEngine) : (s.modMatrix e f).fuses = s.fuses := rfl
@[simp] theorem State.modMatrix_pins (s : State) (e : ClusterId) (f : MatrixEngine → MatrixEngine) : (s.modMatrix e f).pins = s.pins := rfl
@[simp] theorem State.modMatrix_link (s : State) (e : ClusterId) (f : MatrixEngine → MatrixEngine) : (s.modMatrix e f).link = s.link := rfl
@[simp] theorem State.modMatrix_cfg (s : State) (e : ClusterId) (f : MatrixEngine → MatrixEngine) : (s.modMatrix e f).cfg = s.cfg := rfl
@[simp] theorem State.modMatrix_bar0 (s : State) (e : ClusterId) (f : MatrixEngine → MatrixEngine) : (s.modMatrix e f).bar0 = s.bar0 := rfl
@[simp] theorem State.modMatrix_carrels (s : State) (e : ClusterId) (f : MatrixEngine → MatrixEngine) : (s.modMatrix e f).carrels = s.carrels := rfl
@[simp] theorem State.modMatrix_session (s : State) (e : ClusterId) (f : MatrixEngine → MatrixEngine) : (s.modMatrix e f).session = s.session := rfl
@[simp] theorem State.modMatrix_fw (s : State) (e : ClusterId) (f : MatrixEngine → MatrixEngine) : (s.modMatrix e f).fw = s.fw := rfl
@[simp] theorem State.modMatrix_catalogue (s : State) (e : ClusterId) (f : MatrixEngine → MatrixEngine) : (s.modMatrix e f).catalogue = s.catalogue := rfl
@[simp] theorem State.modMatrix_phys (s : State) (e : ClusterId) (f : MatrixEngine → MatrixEngine) : (s.modMatrix e f).phys = s.phys := rfl
@[simp] theorem State.modMatrix_ledger (s : State) (e : ClusterId) (f : MatrixEngine → MatrixEngine) : (s.modMatrix e f).ledger = s.ledger := rfl
@[simp] theorem State.modMatrix_mem (s : State) (e : ClusterId) (f : MatrixEngine → MatrixEngine) : (s.modMatrix e f).mem = s.mem := rfl
@[simp] theorem State.modMatrix_memStacks (s : State) (e : ClusterId) (f : MatrixEngine → MatrixEngine) : (s.modMatrix e f).memStacks = s.memStacks := rfl
@[simp] theorem State.modMatrix_tr (s : State) (e : ClusterId) (f : MatrixEngine → MatrixEngine) : (s.modMatrix e f).tr = s.tr := rfl
@[simp] theorem State.modMatrix_queues (s : State) (e : ClusterId) (f : MatrixEngine → MatrixEngine) : (s.modMatrix e f).queues = s.queues := rfl
@[simp] theorem State.modMatrix_conv (s : State) (e : ClusterId) (f : MatrixEngine → MatrixEngine) : (s.modMatrix e f).conv = s.conv := rfl
@[simp] theorem State.modMatrix_routers (s : State) (e : ClusterId) (f : MatrixEngine → MatrixEngine) : (s.modMatrix e f).routers = s.routers := rfl
@[simp] theorem State.modMatrix_routing (s : State) (e : ClusterId) (f : MatrixEngine → MatrixEngine) : (s.modMatrix e f).routing = s.routing := rfl
@[simp] theorem State.modMatrix_dma (s : State) (e : ClusterId) (f : MatrixEngine → MatrixEngine) : (s.modMatrix e f).dma = s.dma := rfl
@[simp] theorem State.modMatrix_hostReads (s : State) (e : ClusterId) (f : MatrixEngine → MatrixEngine) : (s.modMatrix e f).hostReads = s.hostReads := rfl
@[simp] theorem State.modMatrix_faults (s : State) (e : ClusterId) (f : MatrixEngine → MatrixEngine) : (s.modMatrix e f).faults = s.faults := rfl
@[simp] theorem State.modMatrix_faultWait (s : State) (e : ClusterId) (f : MatrixEngine → MatrixEngine) : (s.modMatrix e f).faultWait = s.faultWait := rfl
@[simp] theorem State.modMatrix_faultSeq (s : State) (e : ClusterId) (f : MatrixEngine → MatrixEngine) : (s.modMatrix e f).faultSeq = s.faultSeq := rfl
@[simp] theorem State.modMatrix_tables (s : State) (e : ClusterId) (f : MatrixEngine → MatrixEngine) : (s.modMatrix e f).tables = s.tables := rfl
@[simp] theorem State.modMatrix_policies (s : State) (e : ClusterId) (f : MatrixEngine → MatrixEngine) : (s.modMatrix e f).policies = s.policies := rfl
@[simp] theorem State.modMatrix_consorts (s : State) (e : ClusterId) (f : MatrixEngine → MatrixEngine) : (s.modMatrix e f).consorts = s.consorts := rfl
@[simp] theorem State.modMatrix_coll (s : State) (e : ClusterId) (f : MatrixEngine → MatrixEngine) : (s.modMatrix e f).coll = s.coll := rfl
@[simp] theorem State.modMatrix_update (s : State) (e : ClusterId) (f : MatrixEngine → MatrixEngine) : (s.modMatrix e f).update = s.update := rfl
@[simp] theorem State.modMatrix_ww (s : State) (e : ClusterId) (f : MatrixEngine → MatrixEngine) : (s.modMatrix e f).ww = s.ww := rfl
@[simp] theorem State.modMatrix_power (s : State) (e : ClusterId) (f : MatrixEngine → MatrixEngine) : (s.modMatrix e f).power = s.power := rfl
@[simp] theorem State.modMatrix_injections (s : State) (e : ClusterId) (f : MatrixEngine → MatrixEngine) : (s.modMatrix e f).injections = s.injections := rfl
@[simp] theorem State.modMatrix_spine (s : State) (e : ClusterId) (f : MatrixEngine → MatrixEngine) : (s.modMatrix e f).spine = s.spine := rfl
@[simp] theorem State.modMatrix_host (s : State) (e : ClusterId) (f : MatrixEngine → MatrixEngine) : (s.modMatrix e f).host = s.host := rfl
@[simp] theorem State.modMatrix_nextUid (s : State) (e : ClusterId) (f : MatrixEngine → MatrixEngine) : (s.modMatrix e f).nextUid = s.nextUid := rfl
@[simp] theorem State.modMatrix_freeCtr (s : State) (e : ClusterId) (f : MatrixEngine → MatrixEngine) : (s.modMatrix e f).freeCtr = s.freeCtr := rfl
@[simp] theorem State.modMatrix_out (s : State) (e : ClusterId) (f : MatrixEngine → MatrixEngine) : (s.modMatrix e f).out = s.out := rfl
@[simp] theorem State.modMatrix_pending (s : State) (e : ClusterId) (f : MatrixEngine → MatrixEngine) : (s.modMatrix e f).pending = s.pending := rfl

/-! ## modVector -/

@[simp] theorem State.modVector_fuses (s : State) (e : ClusterId) (f : VectorEngine → VectorEngine) : (s.modVector e f).fuses = s.fuses := rfl
@[simp] theorem State.modVector_pins (s : State) (e : ClusterId) (f : VectorEngine → VectorEngine) : (s.modVector e f).pins = s.pins := rfl
@[simp] theorem State.modVector_link (s : State) (e : ClusterId) (f : VectorEngine → VectorEngine) : (s.modVector e f).link = s.link := rfl
@[simp] theorem State.modVector_cfg (s : State) (e : ClusterId) (f : VectorEngine → VectorEngine) : (s.modVector e f).cfg = s.cfg := rfl
@[simp] theorem State.modVector_bar0 (s : State) (e : ClusterId) (f : VectorEngine → VectorEngine) : (s.modVector e f).bar0 = s.bar0 := rfl
@[simp] theorem State.modVector_carrels (s : State) (e : ClusterId) (f : VectorEngine → VectorEngine) : (s.modVector e f).carrels = s.carrels := rfl
@[simp] theorem State.modVector_session (s : State) (e : ClusterId) (f : VectorEngine → VectorEngine) : (s.modVector e f).session = s.session := rfl
@[simp] theorem State.modVector_fw (s : State) (e : ClusterId) (f : VectorEngine → VectorEngine) : (s.modVector e f).fw = s.fw := rfl
@[simp] theorem State.modVector_catalogue (s : State) (e : ClusterId) (f : VectorEngine → VectorEngine) : (s.modVector e f).catalogue = s.catalogue := rfl
@[simp] theorem State.modVector_phys (s : State) (e : ClusterId) (f : VectorEngine → VectorEngine) : (s.modVector e f).phys = s.phys := rfl
@[simp] theorem State.modVector_ledger (s : State) (e : ClusterId) (f : VectorEngine → VectorEngine) : (s.modVector e f).ledger = s.ledger := rfl
@[simp] theorem State.modVector_mem (s : State) (e : ClusterId) (f : VectorEngine → VectorEngine) : (s.modVector e f).mem = s.mem := rfl
@[simp] theorem State.modVector_memStacks (s : State) (e : ClusterId) (f : VectorEngine → VectorEngine) : (s.modVector e f).memStacks = s.memStacks := rfl
@[simp] theorem State.modVector_tr (s : State) (e : ClusterId) (f : VectorEngine → VectorEngine) : (s.modVector e f).tr = s.tr := rfl
@[simp] theorem State.modVector_queues (s : State) (e : ClusterId) (f : VectorEngine → VectorEngine) : (s.modVector e f).queues = s.queues := rfl
@[simp] theorem State.modVector_conv (s : State) (e : ClusterId) (f : VectorEngine → VectorEngine) : (s.modVector e f).conv = s.conv := rfl
@[simp] theorem State.modVector_routers (s : State) (e : ClusterId) (f : VectorEngine → VectorEngine) : (s.modVector e f).routers = s.routers := rfl
@[simp] theorem State.modVector_routing (s : State) (e : ClusterId) (f : VectorEngine → VectorEngine) : (s.modVector e f).routing = s.routing := rfl
@[simp] theorem State.modVector_dma (s : State) (e : ClusterId) (f : VectorEngine → VectorEngine) : (s.modVector e f).dma = s.dma := rfl
@[simp] theorem State.modVector_hostReads (s : State) (e : ClusterId) (f : VectorEngine → VectorEngine) : (s.modVector e f).hostReads = s.hostReads := rfl
@[simp] theorem State.modVector_faults (s : State) (e : ClusterId) (f : VectorEngine → VectorEngine) : (s.modVector e f).faults = s.faults := rfl
@[simp] theorem State.modVector_faultWait (s : State) (e : ClusterId) (f : VectorEngine → VectorEngine) : (s.modVector e f).faultWait = s.faultWait := rfl
@[simp] theorem State.modVector_faultSeq (s : State) (e : ClusterId) (f : VectorEngine → VectorEngine) : (s.modVector e f).faultSeq = s.faultSeq := rfl
@[simp] theorem State.modVector_tables (s : State) (e : ClusterId) (f : VectorEngine → VectorEngine) : (s.modVector e f).tables = s.tables := rfl
@[simp] theorem State.modVector_policies (s : State) (e : ClusterId) (f : VectorEngine → VectorEngine) : (s.modVector e f).policies = s.policies := rfl
@[simp] theorem State.modVector_consorts (s : State) (e : ClusterId) (f : VectorEngine → VectorEngine) : (s.modVector e f).consorts = s.consorts := rfl
@[simp] theorem State.modVector_coll (s : State) (e : ClusterId) (f : VectorEngine → VectorEngine) : (s.modVector e f).coll = s.coll := rfl
@[simp] theorem State.modVector_update (s : State) (e : ClusterId) (f : VectorEngine → VectorEngine) : (s.modVector e f).update = s.update := rfl
@[simp] theorem State.modVector_ww (s : State) (e : ClusterId) (f : VectorEngine → VectorEngine) : (s.modVector e f).ww = s.ww := rfl
@[simp] theorem State.modVector_power (s : State) (e : ClusterId) (f : VectorEngine → VectorEngine) : (s.modVector e f).power = s.power := rfl
@[simp] theorem State.modVector_injections (s : State) (e : ClusterId) (f : VectorEngine → VectorEngine) : (s.modVector e f).injections = s.injections := rfl
@[simp] theorem State.modVector_spine (s : State) (e : ClusterId) (f : VectorEngine → VectorEngine) : (s.modVector e f).spine = s.spine := rfl
@[simp] theorem State.modVector_host (s : State) (e : ClusterId) (f : VectorEngine → VectorEngine) : (s.modVector e f).host = s.host := rfl
@[simp] theorem State.modVector_nextUid (s : State) (e : ClusterId) (f : VectorEngine → VectorEngine) : (s.modVector e f).nextUid = s.nextUid := rfl
@[simp] theorem State.modVector_freeCtr (s : State) (e : ClusterId) (f : VectorEngine → VectorEngine) : (s.modVector e f).freeCtr = s.freeCtr := rfl
@[simp] theorem State.modVector_out (s : State) (e : ClusterId) (f : VectorEngine → VectorEngine) : (s.modVector e f).out = s.out := rfl
@[simp] theorem State.modVector_pending (s : State) (e : ClusterId) (f : VectorEngine → VectorEngine) : (s.modVector e f).pending = s.pending := rfl

/-! ## modCarrel -/

@[simp] theorem State.modCarrel_fuses (s : State) (k : Nat) (f : Carrel → Carrel) : (s.modCarrel k f).fuses = s.fuses := rfl
@[simp] theorem State.modCarrel_pins (s : State) (k : Nat) (f : Carrel → Carrel) : (s.modCarrel k f).pins = s.pins := rfl
@[simp] theorem State.modCarrel_link (s : State) (k : Nat) (f : Carrel → Carrel) : (s.modCarrel k f).link = s.link := rfl
@[simp] theorem State.modCarrel_cfg (s : State) (k : Nat) (f : Carrel → Carrel) : (s.modCarrel k f).cfg = s.cfg := rfl
@[simp] theorem State.modCarrel_bar0 (s : State) (k : Nat) (f : Carrel → Carrel) : (s.modCarrel k f).bar0 = s.bar0 := rfl
@[simp] theorem State.modCarrel_session (s : State) (k : Nat) (f : Carrel → Carrel) : (s.modCarrel k f).session = s.session := rfl
@[simp] theorem State.modCarrel_fw (s : State) (k : Nat) (f : Carrel → Carrel) : (s.modCarrel k f).fw = s.fw := rfl
@[simp] theorem State.modCarrel_catalogue (s : State) (k : Nat) (f : Carrel → Carrel) : (s.modCarrel k f).catalogue = s.catalogue := rfl
@[simp] theorem State.modCarrel_phys (s : State) (k : Nat) (f : Carrel → Carrel) : (s.modCarrel k f).phys = s.phys := rfl
@[simp] theorem State.modCarrel_ledger (s : State) (k : Nat) (f : Carrel → Carrel) : (s.modCarrel k f).ledger = s.ledger := rfl
@[simp] theorem State.modCarrel_mem (s : State) (k : Nat) (f : Carrel → Carrel) : (s.modCarrel k f).mem = s.mem := rfl
@[simp] theorem State.modCarrel_memStacks (s : State) (k : Nat) (f : Carrel → Carrel) : (s.modCarrel k f).memStacks = s.memStacks := rfl
@[simp] theorem State.modCarrel_tr (s : State) (k : Nat) (f : Carrel → Carrel) : (s.modCarrel k f).tr = s.tr := rfl
@[simp] theorem State.modCarrel_queues (s : State) (k : Nat) (f : Carrel → Carrel) : (s.modCarrel k f).queues = s.queues := rfl
@[simp] theorem State.modCarrel_clusters (s : State) (k : Nat) (f : Carrel → Carrel) : (s.modCarrel k f).clusters = s.clusters := rfl
@[simp] theorem State.modCarrel_conv (s : State) (k : Nat) (f : Carrel → Carrel) : (s.modCarrel k f).conv = s.conv := rfl
@[simp] theorem State.modCarrel_routers (s : State) (k : Nat) (f : Carrel → Carrel) : (s.modCarrel k f).routers = s.routers := rfl
@[simp] theorem State.modCarrel_routing (s : State) (k : Nat) (f : Carrel → Carrel) : (s.modCarrel k f).routing = s.routing := rfl
@[simp] theorem State.modCarrel_dma (s : State) (k : Nat) (f : Carrel → Carrel) : (s.modCarrel k f).dma = s.dma := rfl
@[simp] theorem State.modCarrel_hostReads (s : State) (k : Nat) (f : Carrel → Carrel) : (s.modCarrel k f).hostReads = s.hostReads := rfl
@[simp] theorem State.modCarrel_faults (s : State) (k : Nat) (f : Carrel → Carrel) : (s.modCarrel k f).faults = s.faults := rfl
@[simp] theorem State.modCarrel_faultWait (s : State) (k : Nat) (f : Carrel → Carrel) : (s.modCarrel k f).faultWait = s.faultWait := rfl
@[simp] theorem State.modCarrel_faultSeq (s : State) (k : Nat) (f : Carrel → Carrel) : (s.modCarrel k f).faultSeq = s.faultSeq := rfl
@[simp] theorem State.modCarrel_tables (s : State) (k : Nat) (f : Carrel → Carrel) : (s.modCarrel k f).tables = s.tables := rfl
@[simp] theorem State.modCarrel_policies (s : State) (k : Nat) (f : Carrel → Carrel) : (s.modCarrel k f).policies = s.policies := rfl
@[simp] theorem State.modCarrel_consorts (s : State) (k : Nat) (f : Carrel → Carrel) : (s.modCarrel k f).consorts = s.consorts := rfl
@[simp] theorem State.modCarrel_coll (s : State) (k : Nat) (f : Carrel → Carrel) : (s.modCarrel k f).coll = s.coll := rfl
@[simp] theorem State.modCarrel_update (s : State) (k : Nat) (f : Carrel → Carrel) : (s.modCarrel k f).update = s.update := rfl
@[simp] theorem State.modCarrel_ww (s : State) (k : Nat) (f : Carrel → Carrel) : (s.modCarrel k f).ww = s.ww := rfl
@[simp] theorem State.modCarrel_power (s : State) (k : Nat) (f : Carrel → Carrel) : (s.modCarrel k f).power = s.power := rfl
@[simp] theorem State.modCarrel_injections (s : State) (k : Nat) (f : Carrel → Carrel) : (s.modCarrel k f).injections = s.injections := rfl
@[simp] theorem State.modCarrel_spine (s : State) (k : Nat) (f : Carrel → Carrel) : (s.modCarrel k f).spine = s.spine := rfl
@[simp] theorem State.modCarrel_host (s : State) (k : Nat) (f : Carrel → Carrel) : (s.modCarrel k f).host = s.host := rfl
@[simp] theorem State.modCarrel_nextUid (s : State) (k : Nat) (f : Carrel → Carrel) : (s.modCarrel k f).nextUid = s.nextUid := rfl
@[simp] theorem State.modCarrel_freeCtr (s : State) (k : Nat) (f : Carrel → Carrel) : (s.modCarrel k f).freeCtr = s.freeCtr := rfl
@[simp] theorem State.modCarrel_out (s : State) (k : Nat) (f : Carrel → Carrel) : (s.modCarrel k f).out = s.out := rfl
@[simp] theorem State.modCarrel_pending (s : State) (k : Nat) (f : Carrel → Carrel) : (s.modCarrel k f).pending = s.pending := rfl

/-! ## modQueue -/

@[simp] theorem State.modQueue_fuses (s : State) (q : Nat) (f : Queue → Queue) : (s.modQueue q f).fuses = s.fuses := rfl
@[simp] theorem State.modQueue_pins (s : State) (q : Nat) (f : Queue → Queue) : (s.modQueue q f).pins = s.pins := rfl
@[simp] theorem State.modQueue_link (s : State) (q : Nat) (f : Queue → Queue) : (s.modQueue q f).link = s.link := rfl
@[simp] theorem State.modQueue_cfg (s : State) (q : Nat) (f : Queue → Queue) : (s.modQueue q f).cfg = s.cfg := rfl
@[simp] theorem State.modQueue_bar0 (s : State) (q : Nat) (f : Queue → Queue) : (s.modQueue q f).bar0 = s.bar0 := rfl
@[simp] theorem State.modQueue_carrels (s : State) (q : Nat) (f : Queue → Queue) : (s.modQueue q f).carrels = s.carrels := rfl
@[simp] theorem State.modQueue_session (s : State) (q : Nat) (f : Queue → Queue) : (s.modQueue q f).session = s.session := rfl
@[simp] theorem State.modQueue_fw (s : State) (q : Nat) (f : Queue → Queue) : (s.modQueue q f).fw = s.fw := rfl
@[simp] theorem State.modQueue_catalogue (s : State) (q : Nat) (f : Queue → Queue) : (s.modQueue q f).catalogue = s.catalogue := rfl
@[simp] theorem State.modQueue_phys (s : State) (q : Nat) (f : Queue → Queue) : (s.modQueue q f).phys = s.phys := rfl
@[simp] theorem State.modQueue_ledger (s : State) (q : Nat) (f : Queue → Queue) : (s.modQueue q f).ledger = s.ledger := rfl
@[simp] theorem State.modQueue_mem (s : State) (q : Nat) (f : Queue → Queue) : (s.modQueue q f).mem = s.mem := rfl
@[simp] theorem State.modQueue_memStacks (s : State) (q : Nat) (f : Queue → Queue) : (s.modQueue q f).memStacks = s.memStacks := rfl
@[simp] theorem State.modQueue_tr (s : State) (q : Nat) (f : Queue → Queue) : (s.modQueue q f).tr = s.tr := rfl
@[simp] theorem State.modQueue_clusters (s : State) (q : Nat) (f : Queue → Queue) : (s.modQueue q f).clusters = s.clusters := rfl
@[simp] theorem State.modQueue_conv (s : State) (q : Nat) (f : Queue → Queue) : (s.modQueue q f).conv = s.conv := rfl
@[simp] theorem State.modQueue_routers (s : State) (q : Nat) (f : Queue → Queue) : (s.modQueue q f).routers = s.routers := rfl
@[simp] theorem State.modQueue_routing (s : State) (q : Nat) (f : Queue → Queue) : (s.modQueue q f).routing = s.routing := rfl
@[simp] theorem State.modQueue_dma (s : State) (q : Nat) (f : Queue → Queue) : (s.modQueue q f).dma = s.dma := rfl
@[simp] theorem State.modQueue_hostReads (s : State) (q : Nat) (f : Queue → Queue) : (s.modQueue q f).hostReads = s.hostReads := rfl
@[simp] theorem State.modQueue_faults (s : State) (q : Nat) (f : Queue → Queue) : (s.modQueue q f).faults = s.faults := rfl
@[simp] theorem State.modQueue_faultWait (s : State) (q : Nat) (f : Queue → Queue) : (s.modQueue q f).faultWait = s.faultWait := rfl
@[simp] theorem State.modQueue_faultSeq (s : State) (q : Nat) (f : Queue → Queue) : (s.modQueue q f).faultSeq = s.faultSeq := rfl
@[simp] theorem State.modQueue_tables (s : State) (q : Nat) (f : Queue → Queue) : (s.modQueue q f).tables = s.tables := rfl
@[simp] theorem State.modQueue_policies (s : State) (q : Nat) (f : Queue → Queue) : (s.modQueue q f).policies = s.policies := rfl
@[simp] theorem State.modQueue_consorts (s : State) (q : Nat) (f : Queue → Queue) : (s.modQueue q f).consorts = s.consorts := rfl
@[simp] theorem State.modQueue_coll (s : State) (q : Nat) (f : Queue → Queue) : (s.modQueue q f).coll = s.coll := rfl
@[simp] theorem State.modQueue_update (s : State) (q : Nat) (f : Queue → Queue) : (s.modQueue q f).update = s.update := rfl
@[simp] theorem State.modQueue_ww (s : State) (q : Nat) (f : Queue → Queue) : (s.modQueue q f).ww = s.ww := rfl
@[simp] theorem State.modQueue_power (s : State) (q : Nat) (f : Queue → Queue) : (s.modQueue q f).power = s.power := rfl
@[simp] theorem State.modQueue_injections (s : State) (q : Nat) (f : Queue → Queue) : (s.modQueue q f).injections = s.injections := rfl
@[simp] theorem State.modQueue_spine (s : State) (q : Nat) (f : Queue → Queue) : (s.modQueue q f).spine = s.spine := rfl
@[simp] theorem State.modQueue_host (s : State) (q : Nat) (f : Queue → Queue) : (s.modQueue q f).host = s.host := rfl
@[simp] theorem State.modQueue_nextUid (s : State) (q : Nat) (f : Queue → Queue) : (s.modQueue q f).nextUid = s.nextUid := rfl
@[simp] theorem State.modQueue_freeCtr (s : State) (q : Nat) (f : Queue → Queue) : (s.modQueue q f).freeCtr = s.freeCtr := rfl
@[simp] theorem State.modQueue_out (s : State) (q : Nat) (f : Queue → Queue) : (s.modQueue q f).out = s.out := rfl
@[simp] theorem State.modQueue_pending (s : State) (q : Nat) (f : Queue → Queue) : (s.modQueue q f).pending = s.pending := rfl

/-! ## modDie -/

@[simp] theorem State.modDie_fuses (s : State) (k : DieKind) (n : Nat) (f : DiePower → DiePower) : (s.modDie k n f).fuses = s.fuses := rfl
@[simp] theorem State.modDie_pins (s : State) (k : DieKind) (n : Nat) (f : DiePower → DiePower) : (s.modDie k n f).pins = s.pins := rfl
@[simp] theorem State.modDie_link (s : State) (k : DieKind) (n : Nat) (f : DiePower → DiePower) : (s.modDie k n f).link = s.link := rfl
@[simp] theorem State.modDie_cfg (s : State) (k : DieKind) (n : Nat) (f : DiePower → DiePower) : (s.modDie k n f).cfg = s.cfg := rfl
@[simp] theorem State.modDie_bar0 (s : State) (k : DieKind) (n : Nat) (f : DiePower → DiePower) : (s.modDie k n f).bar0 = s.bar0 := rfl
@[simp] theorem State.modDie_carrels (s : State) (k : DieKind) (n : Nat) (f : DiePower → DiePower) : (s.modDie k n f).carrels = s.carrels := rfl
@[simp] theorem State.modDie_session (s : State) (k : DieKind) (n : Nat) (f : DiePower → DiePower) : (s.modDie k n f).session = s.session := rfl
@[simp] theorem State.modDie_fw (s : State) (k : DieKind) (n : Nat) (f : DiePower → DiePower) : (s.modDie k n f).fw = s.fw := rfl
@[simp] theorem State.modDie_catalogue (s : State) (k : DieKind) (n : Nat) (f : DiePower → DiePower) : (s.modDie k n f).catalogue = s.catalogue := rfl
@[simp] theorem State.modDie_phys (s : State) (k : DieKind) (n : Nat) (f : DiePower → DiePower) : (s.modDie k n f).phys = s.phys := rfl
@[simp] theorem State.modDie_ledger (s : State) (k : DieKind) (n : Nat) (f : DiePower → DiePower) : (s.modDie k n f).ledger = s.ledger := rfl
@[simp] theorem State.modDie_mem (s : State) (k : DieKind) (n : Nat) (f : DiePower → DiePower) : (s.modDie k n f).mem = s.mem := rfl
@[simp] theorem State.modDie_memStacks (s : State) (k : DieKind) (n : Nat) (f : DiePower → DiePower) : (s.modDie k n f).memStacks = s.memStacks := rfl
@[simp] theorem State.modDie_tr (s : State) (k : DieKind) (n : Nat) (f : DiePower → DiePower) : (s.modDie k n f).tr = s.tr := rfl
@[simp] theorem State.modDie_queues (s : State) (k : DieKind) (n : Nat) (f : DiePower → DiePower) : (s.modDie k n f).queues = s.queues := rfl
@[simp] theorem State.modDie_clusters (s : State) (k : DieKind) (n : Nat) (f : DiePower → DiePower) : (s.modDie k n f).clusters = s.clusters := rfl
@[simp] theorem State.modDie_conv (s : State) (k : DieKind) (n : Nat) (f : DiePower → DiePower) : (s.modDie k n f).conv = s.conv := rfl
@[simp] theorem State.modDie_routers (s : State) (k : DieKind) (n : Nat) (f : DiePower → DiePower) : (s.modDie k n f).routers = s.routers := rfl
@[simp] theorem State.modDie_routing (s : State) (k : DieKind) (n : Nat) (f : DiePower → DiePower) : (s.modDie k n f).routing = s.routing := rfl
@[simp] theorem State.modDie_dma (s : State) (k : DieKind) (n : Nat) (f : DiePower → DiePower) : (s.modDie k n f).dma = s.dma := rfl
@[simp] theorem State.modDie_hostReads (s : State) (k : DieKind) (n : Nat) (f : DiePower → DiePower) : (s.modDie k n f).hostReads = s.hostReads := rfl
@[simp] theorem State.modDie_faults (s : State) (k : DieKind) (n : Nat) (f : DiePower → DiePower) : (s.modDie k n f).faults = s.faults := rfl
@[simp] theorem State.modDie_faultWait (s : State) (k : DieKind) (n : Nat) (f : DiePower → DiePower) : (s.modDie k n f).faultWait = s.faultWait := rfl
@[simp] theorem State.modDie_faultSeq (s : State) (k : DieKind) (n : Nat) (f : DiePower → DiePower) : (s.modDie k n f).faultSeq = s.faultSeq := rfl
@[simp] theorem State.modDie_tables (s : State) (k : DieKind) (n : Nat) (f : DiePower → DiePower) : (s.modDie k n f).tables = s.tables := rfl
@[simp] theorem State.modDie_policies (s : State) (k : DieKind) (n : Nat) (f : DiePower → DiePower) : (s.modDie k n f).policies = s.policies := rfl
@[simp] theorem State.modDie_consorts (s : State) (k : DieKind) (n : Nat) (f : DiePower → DiePower) : (s.modDie k n f).consorts = s.consorts := rfl
@[simp] theorem State.modDie_coll (s : State) (k : DieKind) (n : Nat) (f : DiePower → DiePower) : (s.modDie k n f).coll = s.coll := rfl
@[simp] theorem State.modDie_update (s : State) (k : DieKind) (n : Nat) (f : DiePower → DiePower) : (s.modDie k n f).update = s.update := rfl
@[simp] theorem State.modDie_ww (s : State) (k : DieKind) (n : Nat) (f : DiePower → DiePower) : (s.modDie k n f).ww = s.ww := rfl
@[simp] theorem State.modDie_injections (s : State) (k : DieKind) (n : Nat) (f : DiePower → DiePower) : (s.modDie k n f).injections = s.injections := rfl
@[simp] theorem State.modDie_spine (s : State) (k : DieKind) (n : Nat) (f : DiePower → DiePower) : (s.modDie k n f).spine = s.spine := rfl
@[simp] theorem State.modDie_host (s : State) (k : DieKind) (n : Nat) (f : DiePower → DiePower) : (s.modDie k n f).host = s.host := rfl
@[simp] theorem State.modDie_nextUid (s : State) (k : DieKind) (n : Nat) (f : DiePower → DiePower) : (s.modDie k n f).nextUid = s.nextUid := rfl
@[simp] theorem State.modDie_freeCtr (s : State) (k : DieKind) (n : Nat) (f : DiePower → DiePower) : (s.modDie k n f).freeCtr = s.freeCtr := rfl
@[simp] theorem State.modDie_out (s : State) (k : DieKind) (n : Nat) (f : DiePower → DiePower) : (s.modDie k n f).out = s.out := rfl
@[simp] theorem State.modDie_pending (s : State) (k : DieKind) (n : Nat) (f : DiePower → DiePower) : (s.modDie k n f).pending = s.pending := rfl

/-! ## modStack -/

@[simp] theorem State.modStack_fuses (s : State) (sp : Space) (k : Nat) (f : Stack → Stack) : (s.modStack sp k f).fuses = s.fuses := rfl
@[simp] theorem State.modStack_pins (s : State) (sp : Space) (k : Nat) (f : Stack → Stack) : (s.modStack sp k f).pins = s.pins := rfl
@[simp] theorem State.modStack_link (s : State) (sp : Space) (k : Nat) (f : Stack → Stack) : (s.modStack sp k f).link = s.link := rfl
@[simp] theorem State.modStack_cfg (s : State) (sp : Space) (k : Nat) (f : Stack → Stack) : (s.modStack sp k f).cfg = s.cfg := rfl
@[simp] theorem State.modStack_bar0 (s : State) (sp : Space) (k : Nat) (f : Stack → Stack) : (s.modStack sp k f).bar0 = s.bar0 := rfl
@[simp] theorem State.modStack_carrels (s : State) (sp : Space) (k : Nat) (f : Stack → Stack) : (s.modStack sp k f).carrels = s.carrels := rfl
@[simp] theorem State.modStack_session (s : State) (sp : Space) (k : Nat) (f : Stack → Stack) : (s.modStack sp k f).session = s.session := rfl
@[simp] theorem State.modStack_fw (s : State) (sp : Space) (k : Nat) (f : Stack → Stack) : (s.modStack sp k f).fw = s.fw := rfl
@[simp] theorem State.modStack_catalogue (s : State) (sp : Space) (k : Nat) (f : Stack → Stack) : (s.modStack sp k f).catalogue = s.catalogue := rfl
@[simp] theorem State.modStack_phys (s : State) (sp : Space) (k : Nat) (f : Stack → Stack) : (s.modStack sp k f).phys = s.phys := rfl
@[simp] theorem State.modStack_ledger (s : State) (sp : Space) (k : Nat) (f : Stack → Stack) : (s.modStack sp k f).ledger = s.ledger := rfl
@[simp] theorem State.modStack_mem (s : State) (sp : Space) (k : Nat) (f : Stack → Stack) : (s.modStack sp k f).mem = s.mem := rfl
@[simp] theorem State.modStack_tr (s : State) (sp : Space) (k : Nat) (f : Stack → Stack) : (s.modStack sp k f).tr = s.tr := rfl
@[simp] theorem State.modStack_queues (s : State) (sp : Space) (k : Nat) (f : Stack → Stack) : (s.modStack sp k f).queues = s.queues := rfl
@[simp] theorem State.modStack_clusters (s : State) (sp : Space) (k : Nat) (f : Stack → Stack) : (s.modStack sp k f).clusters = s.clusters := rfl
@[simp] theorem State.modStack_conv (s : State) (sp : Space) (k : Nat) (f : Stack → Stack) : (s.modStack sp k f).conv = s.conv := rfl
@[simp] theorem State.modStack_routers (s : State) (sp : Space) (k : Nat) (f : Stack → Stack) : (s.modStack sp k f).routers = s.routers := rfl
@[simp] theorem State.modStack_routing (s : State) (sp : Space) (k : Nat) (f : Stack → Stack) : (s.modStack sp k f).routing = s.routing := rfl
@[simp] theorem State.modStack_dma (s : State) (sp : Space) (k : Nat) (f : Stack → Stack) : (s.modStack sp k f).dma = s.dma := rfl
@[simp] theorem State.modStack_hostReads (s : State) (sp : Space) (k : Nat) (f : Stack → Stack) : (s.modStack sp k f).hostReads = s.hostReads := rfl
@[simp] theorem State.modStack_faults (s : State) (sp : Space) (k : Nat) (f : Stack → Stack) : (s.modStack sp k f).faults = s.faults := rfl
@[simp] theorem State.modStack_faultWait (s : State) (sp : Space) (k : Nat) (f : Stack → Stack) : (s.modStack sp k f).faultWait = s.faultWait := rfl
@[simp] theorem State.modStack_faultSeq (s : State) (sp : Space) (k : Nat) (f : Stack → Stack) : (s.modStack sp k f).faultSeq = s.faultSeq := rfl
@[simp] theorem State.modStack_tables (s : State) (sp : Space) (k : Nat) (f : Stack → Stack) : (s.modStack sp k f).tables = s.tables := rfl
@[simp] theorem State.modStack_policies (s : State) (sp : Space) (k : Nat) (f : Stack → Stack) : (s.modStack sp k f).policies = s.policies := rfl
@[simp] theorem State.modStack_consorts (s : State) (sp : Space) (k : Nat) (f : Stack → Stack) : (s.modStack sp k f).consorts = s.consorts := rfl
@[simp] theorem State.modStack_coll (s : State) (sp : Space) (k : Nat) (f : Stack → Stack) : (s.modStack sp k f).coll = s.coll := rfl
@[simp] theorem State.modStack_update (s : State) (sp : Space) (k : Nat) (f : Stack → Stack) : (s.modStack sp k f).update = s.update := rfl
@[simp] theorem State.modStack_ww (s : State) (sp : Space) (k : Nat) (f : Stack → Stack) : (s.modStack sp k f).ww = s.ww := rfl
@[simp] theorem State.modStack_power (s : State) (sp : Space) (k : Nat) (f : Stack → Stack) : (s.modStack sp k f).power = s.power := rfl
@[simp] theorem State.modStack_injections (s : State) (sp : Space) (k : Nat) (f : Stack → Stack) : (s.modStack sp k f).injections = s.injections := rfl
@[simp] theorem State.modStack_spine (s : State) (sp : Space) (k : Nat) (f : Stack → Stack) : (s.modStack sp k f).spine = s.spine := rfl
@[simp] theorem State.modStack_host (s : State) (sp : Space) (k : Nat) (f : Stack → Stack) : (s.modStack sp k f).host = s.host := rfl
@[simp] theorem State.modStack_nextUid (s : State) (sp : Space) (k : Nat) (f : Stack → Stack) : (s.modStack sp k f).nextUid = s.nextUid := rfl
@[simp] theorem State.modStack_freeCtr (s : State) (sp : Space) (k : Nat) (f : Stack → Stack) : (s.modStack sp k f).freeCtr = s.freeCtr := rfl
@[simp] theorem State.modStack_out (s : State) (sp : Space) (k : Nat) (f : Stack → Stack) : (s.modStack sp k f).out = s.out := rfl
@[simp] theorem State.modStack_pending (s : State) (sp : Space) (k : Nat) (f : Stack → Stack) : (s.modStack sp k f).pending = s.pending := rfl

/-! ## modPort -/

@[simp] theorem State.modPort_fuses (s : State) (p : Nat) (f : Port → Port) : (s.modPort p f).fuses = s.fuses := rfl
@[simp] theorem State.modPort_pins (s : State) (p : Nat) (f : Port → Port) : (s.modPort p f).pins = s.pins := rfl
@[simp] theorem State.modPort_link (s : State) (p : Nat) (f : Port → Port) : (s.modPort p f).link = s.link := rfl
@[simp] theorem State.modPort_cfg (s : State) (p : Nat) (f : Port → Port) : (s.modPort p f).cfg = s.cfg := rfl
@[simp] theorem State.modPort_bar0 (s : State) (p : Nat) (f : Port → Port) : (s.modPort p f).bar0 = s.bar0 := rfl
@[simp] theorem State.modPort_carrels (s : State) (p : Nat) (f : Port → Port) : (s.modPort p f).carrels = s.carrels := rfl
@[simp] theorem State.modPort_session (s : State) (p : Nat) (f : Port → Port) : (s.modPort p f).session = s.session := rfl
@[simp] theorem State.modPort_fw (s : State) (p : Nat) (f : Port → Port) : (s.modPort p f).fw = s.fw := rfl
@[simp] theorem State.modPort_catalogue (s : State) (p : Nat) (f : Port → Port) : (s.modPort p f).catalogue = s.catalogue := rfl
@[simp] theorem State.modPort_phys (s : State) (p : Nat) (f : Port → Port) : (s.modPort p f).phys = s.phys := rfl
@[simp] theorem State.modPort_ledger (s : State) (p : Nat) (f : Port → Port) : (s.modPort p f).ledger = s.ledger := rfl
@[simp] theorem State.modPort_mem (s : State) (p : Nat) (f : Port → Port) : (s.modPort p f).mem = s.mem := rfl
@[simp] theorem State.modPort_memStacks (s : State) (p : Nat) (f : Port → Port) : (s.modPort p f).memStacks = s.memStacks := rfl
@[simp] theorem State.modPort_tr (s : State) (p : Nat) (f : Port → Port) : (s.modPort p f).tr = s.tr := rfl
@[simp] theorem State.modPort_queues (s : State) (p : Nat) (f : Port → Port) : (s.modPort p f).queues = s.queues := rfl
@[simp] theorem State.modPort_clusters (s : State) (p : Nat) (f : Port → Port) : (s.modPort p f).clusters = s.clusters := rfl
@[simp] theorem State.modPort_conv (s : State) (p : Nat) (f : Port → Port) : (s.modPort p f).conv = s.conv := rfl
@[simp] theorem State.modPort_routers (s : State) (p : Nat) (f : Port → Port) : (s.modPort p f).routers = s.routers := rfl
@[simp] theorem State.modPort_routing (s : State) (p : Nat) (f : Port → Port) : (s.modPort p f).routing = s.routing := rfl
@[simp] theorem State.modPort_dma (s : State) (p : Nat) (f : Port → Port) : (s.modPort p f).dma = s.dma := rfl
@[simp] theorem State.modPort_hostReads (s : State) (p : Nat) (f : Port → Port) : (s.modPort p f).hostReads = s.hostReads := rfl
@[simp] theorem State.modPort_faults (s : State) (p : Nat) (f : Port → Port) : (s.modPort p f).faults = s.faults := rfl
@[simp] theorem State.modPort_faultWait (s : State) (p : Nat) (f : Port → Port) : (s.modPort p f).faultWait = s.faultWait := rfl
@[simp] theorem State.modPort_faultSeq (s : State) (p : Nat) (f : Port → Port) : (s.modPort p f).faultSeq = s.faultSeq := rfl
@[simp] theorem State.modPort_tables (s : State) (p : Nat) (f : Port → Port) : (s.modPort p f).tables = s.tables := rfl
@[simp] theorem State.modPort_policies (s : State) (p : Nat) (f : Port → Port) : (s.modPort p f).policies = s.policies := rfl
@[simp] theorem State.modPort_consorts (s : State) (p : Nat) (f : Port → Port) : (s.modPort p f).consorts = s.consorts := rfl
@[simp] theorem State.modPort_coll (s : State) (p : Nat) (f : Port → Port) : (s.modPort p f).coll = s.coll := rfl
@[simp] theorem State.modPort_update (s : State) (p : Nat) (f : Port → Port) : (s.modPort p f).update = s.update := rfl
@[simp] theorem State.modPort_power (s : State) (p : Nat) (f : Port → Port) : (s.modPort p f).power = s.power := rfl
@[simp] theorem State.modPort_injections (s : State) (p : Nat) (f : Port → Port) : (s.modPort p f).injections = s.injections := rfl
@[simp] theorem State.modPort_spine (s : State) (p : Nat) (f : Port → Port) : (s.modPort p f).spine = s.spine := rfl
@[simp] theorem State.modPort_host (s : State) (p : Nat) (f : Port → Port) : (s.modPort p f).host = s.host := rfl
@[simp] theorem State.modPort_nextUid (s : State) (p : Nat) (f : Port → Port) : (s.modPort p f).nextUid = s.nextUid := rfl
@[simp] theorem State.modPort_freeCtr (s : State) (p : Nat) (f : Port → Port) : (s.modPort p f).freeCtr = s.freeCtr := rfl
@[simp] theorem State.modPort_out (s : State) (p : Nat) (f : Port → Port) : (s.modPort p f).out = s.out := rfl
@[simp] theorem State.modPort_pending (s : State) (p : Nat) (f : Port → Port) : (s.modPort p f).pending = s.pending := rfl

/-! ## modConsort -/

@[simp] theorem State.modConsort_fuses (s : State) (x : Nat) (f : ConsortEngine → ConsortEngine) : (s.modConsort x f).fuses = s.fuses := rfl
@[simp] theorem State.modConsort_pins (s : State) (x : Nat) (f : ConsortEngine → ConsortEngine) : (s.modConsort x f).pins = s.pins := rfl
@[simp] theorem State.modConsort_link (s : State) (x : Nat) (f : ConsortEngine → ConsortEngine) : (s.modConsort x f).link = s.link := rfl
@[simp] theorem State.modConsort_cfg (s : State) (x : Nat) (f : ConsortEngine → ConsortEngine) : (s.modConsort x f).cfg = s.cfg := rfl
@[simp] theorem State.modConsort_bar0 (s : State) (x : Nat) (f : ConsortEngine → ConsortEngine) : (s.modConsort x f).bar0 = s.bar0 := rfl
@[simp] theorem State.modConsort_carrels (s : State) (x : Nat) (f : ConsortEngine → ConsortEngine) : (s.modConsort x f).carrels = s.carrels := rfl
@[simp] theorem State.modConsort_session (s : State) (x : Nat) (f : ConsortEngine → ConsortEngine) : (s.modConsort x f).session = s.session := rfl
@[simp] theorem State.modConsort_fw (s : State) (x : Nat) (f : ConsortEngine → ConsortEngine) : (s.modConsort x f).fw = s.fw := rfl
@[simp] theorem State.modConsort_catalogue (s : State) (x : Nat) (f : ConsortEngine → ConsortEngine) : (s.modConsort x f).catalogue = s.catalogue := rfl
@[simp] theorem State.modConsort_phys (s : State) (x : Nat) (f : ConsortEngine → ConsortEngine) : (s.modConsort x f).phys = s.phys := rfl
@[simp] theorem State.modConsort_ledger (s : State) (x : Nat) (f : ConsortEngine → ConsortEngine) : (s.modConsort x f).ledger = s.ledger := rfl
@[simp] theorem State.modConsort_mem (s : State) (x : Nat) (f : ConsortEngine → ConsortEngine) : (s.modConsort x f).mem = s.mem := rfl
@[simp] theorem State.modConsort_memStacks (s : State) (x : Nat) (f : ConsortEngine → ConsortEngine) : (s.modConsort x f).memStacks = s.memStacks := rfl
@[simp] theorem State.modConsort_tr (s : State) (x : Nat) (f : ConsortEngine → ConsortEngine) : (s.modConsort x f).tr = s.tr := rfl
@[simp] theorem State.modConsort_queues (s : State) (x : Nat) (f : ConsortEngine → ConsortEngine) : (s.modConsort x f).queues = s.queues := rfl
@[simp] theorem State.modConsort_clusters (s : State) (x : Nat) (f : ConsortEngine → ConsortEngine) : (s.modConsort x f).clusters = s.clusters := rfl
@[simp] theorem State.modConsort_conv (s : State) (x : Nat) (f : ConsortEngine → ConsortEngine) : (s.modConsort x f).conv = s.conv := rfl
@[simp] theorem State.modConsort_routers (s : State) (x : Nat) (f : ConsortEngine → ConsortEngine) : (s.modConsort x f).routers = s.routers := rfl
@[simp] theorem State.modConsort_routing (s : State) (x : Nat) (f : ConsortEngine → ConsortEngine) : (s.modConsort x f).routing = s.routing := rfl
@[simp] theorem State.modConsort_dma (s : State) (x : Nat) (f : ConsortEngine → ConsortEngine) : (s.modConsort x f).dma = s.dma := rfl
@[simp] theorem State.modConsort_hostReads (s : State) (x : Nat) (f : ConsortEngine → ConsortEngine) : (s.modConsort x f).hostReads = s.hostReads := rfl
@[simp] theorem State.modConsort_faults (s : State) (x : Nat) (f : ConsortEngine → ConsortEngine) : (s.modConsort x f).faults = s.faults := rfl
@[simp] theorem State.modConsort_faultWait (s : State) (x : Nat) (f : ConsortEngine → ConsortEngine) : (s.modConsort x f).faultWait = s.faultWait := rfl
@[simp] theorem State.modConsort_faultSeq (s : State) (x : Nat) (f : ConsortEngine → ConsortEngine) : (s.modConsort x f).faultSeq = s.faultSeq := rfl
@[simp] theorem State.modConsort_tables (s : State) (x : Nat) (f : ConsortEngine → ConsortEngine) : (s.modConsort x f).tables = s.tables := rfl
@[simp] theorem State.modConsort_policies (s : State) (x : Nat) (f : ConsortEngine → ConsortEngine) : (s.modConsort x f).policies = s.policies := rfl
@[simp] theorem State.modConsort_coll (s : State) (x : Nat) (f : ConsortEngine → ConsortEngine) : (s.modConsort x f).coll = s.coll := rfl
@[simp] theorem State.modConsort_update (s : State) (x : Nat) (f : ConsortEngine → ConsortEngine) : (s.modConsort x f).update = s.update := rfl
@[simp] theorem State.modConsort_ww (s : State) (x : Nat) (f : ConsortEngine → ConsortEngine) : (s.modConsort x f).ww = s.ww := rfl
@[simp] theorem State.modConsort_power (s : State) (x : Nat) (f : ConsortEngine → ConsortEngine) : (s.modConsort x f).power = s.power := rfl
@[simp] theorem State.modConsort_injections (s : State) (x : Nat) (f : ConsortEngine → ConsortEngine) : (s.modConsort x f).injections = s.injections := rfl
@[simp] theorem State.modConsort_spine (s : State) (x : Nat) (f : ConsortEngine → ConsortEngine) : (s.modConsort x f).spine = s.spine := rfl
@[simp] theorem State.modConsort_host (s : State) (x : Nat) (f : ConsortEngine → ConsortEngine) : (s.modConsort x f).host = s.host := rfl
@[simp] theorem State.modConsort_nextUid (s : State) (x : Nat) (f : ConsortEngine → ConsortEngine) : (s.modConsort x f).nextUid = s.nextUid := rfl
@[simp] theorem State.modConsort_freeCtr (s : State) (x : Nat) (f : ConsortEngine → ConsortEngine) : (s.modConsort x f).freeCtr = s.freeCtr := rfl
@[simp] theorem State.modConsort_out (s : State) (x : Nat) (f : ConsortEngine → ConsortEngine) : (s.modConsort x f).out = s.out := rfl
@[simp] theorem State.modConsort_pending (s : State) (x : Nat) (f : ConsortEngine → ConsortEngine) : (s.modConsort x f).pending = s.pending := rfl

/-! ## setRouting -/

@[simp] theorem State.setRouting_fuses (s : State) (x : Nat) (op : Option RoutingOp) : (s.setRouting x op).fuses = s.fuses := rfl
@[simp] theorem State.setRouting_pins (s : State) (x : Nat) (op : Option RoutingOp) : (s.setRouting x op).pins = s.pins := rfl
@[simp] theorem State.setRouting_link (s : State) (x : Nat) (op : Option RoutingOp) : (s.setRouting x op).link = s.link := rfl
@[simp] theorem State.setRouting_cfg (s : State) (x : Nat) (op : Option RoutingOp) : (s.setRouting x op).cfg = s.cfg := rfl
@[simp] theorem State.setRouting_bar0 (s : State) (x : Nat) (op : Option RoutingOp) : (s.setRouting x op).bar0 = s.bar0 := rfl
@[simp] theorem State.setRouting_carrels (s : State) (x : Nat) (op : Option RoutingOp) : (s.setRouting x op).carrels = s.carrels := rfl
@[simp] theorem State.setRouting_session (s : State) (x : Nat) (op : Option RoutingOp) : (s.setRouting x op).session = s.session := rfl
@[simp] theorem State.setRouting_fw (s : State) (x : Nat) (op : Option RoutingOp) : (s.setRouting x op).fw = s.fw := rfl
@[simp] theorem State.setRouting_catalogue (s : State) (x : Nat) (op : Option RoutingOp) : (s.setRouting x op).catalogue = s.catalogue := rfl
@[simp] theorem State.setRouting_phys (s : State) (x : Nat) (op : Option RoutingOp) : (s.setRouting x op).phys = s.phys := rfl
@[simp] theorem State.setRouting_ledger (s : State) (x : Nat) (op : Option RoutingOp) : (s.setRouting x op).ledger = s.ledger := rfl
@[simp] theorem State.setRouting_mem (s : State) (x : Nat) (op : Option RoutingOp) : (s.setRouting x op).mem = s.mem := rfl
@[simp] theorem State.setRouting_memStacks (s : State) (x : Nat) (op : Option RoutingOp) : (s.setRouting x op).memStacks = s.memStacks := rfl
@[simp] theorem State.setRouting_tr (s : State) (x : Nat) (op : Option RoutingOp) : (s.setRouting x op).tr = s.tr := rfl
@[simp] theorem State.setRouting_queues (s : State) (x : Nat) (op : Option RoutingOp) : (s.setRouting x op).queues = s.queues := rfl
@[simp] theorem State.setRouting_clusters (s : State) (x : Nat) (op : Option RoutingOp) : (s.setRouting x op).clusters = s.clusters := rfl
@[simp] theorem State.setRouting_conv (s : State) (x : Nat) (op : Option RoutingOp) : (s.setRouting x op).conv = s.conv := rfl
@[simp] theorem State.setRouting_routing (s : State) (x : Nat) (op : Option RoutingOp) : (s.setRouting x op).routing = s.routing := rfl
@[simp] theorem State.setRouting_dma (s : State) (x : Nat) (op : Option RoutingOp) : (s.setRouting x op).dma = s.dma := rfl
@[simp] theorem State.setRouting_hostReads (s : State) (x : Nat) (op : Option RoutingOp) : (s.setRouting x op).hostReads = s.hostReads := rfl
@[simp] theorem State.setRouting_faults (s : State) (x : Nat) (op : Option RoutingOp) : (s.setRouting x op).faults = s.faults := rfl
@[simp] theorem State.setRouting_faultWait (s : State) (x : Nat) (op : Option RoutingOp) : (s.setRouting x op).faultWait = s.faultWait := rfl
@[simp] theorem State.setRouting_faultSeq (s : State) (x : Nat) (op : Option RoutingOp) : (s.setRouting x op).faultSeq = s.faultSeq := rfl
@[simp] theorem State.setRouting_tables (s : State) (x : Nat) (op : Option RoutingOp) : (s.setRouting x op).tables = s.tables := rfl
@[simp] theorem State.setRouting_policies (s : State) (x : Nat) (op : Option RoutingOp) : (s.setRouting x op).policies = s.policies := rfl
@[simp] theorem State.setRouting_consorts (s : State) (x : Nat) (op : Option RoutingOp) : (s.setRouting x op).consorts = s.consorts := rfl
@[simp] theorem State.setRouting_coll (s : State) (x : Nat) (op : Option RoutingOp) : (s.setRouting x op).coll = s.coll := rfl
@[simp] theorem State.setRouting_update (s : State) (x : Nat) (op : Option RoutingOp) : (s.setRouting x op).update = s.update := rfl
@[simp] theorem State.setRouting_ww (s : State) (x : Nat) (op : Option RoutingOp) : (s.setRouting x op).ww = s.ww := rfl
@[simp] theorem State.setRouting_power (s : State) (x : Nat) (op : Option RoutingOp) : (s.setRouting x op).power = s.power := rfl
@[simp] theorem State.setRouting_injections (s : State) (x : Nat) (op : Option RoutingOp) : (s.setRouting x op).injections = s.injections := rfl
@[simp] theorem State.setRouting_spine (s : State) (x : Nat) (op : Option RoutingOp) : (s.setRouting x op).spine = s.spine := rfl
@[simp] theorem State.setRouting_host (s : State) (x : Nat) (op : Option RoutingOp) : (s.setRouting x op).host = s.host := rfl
@[simp] theorem State.setRouting_nextUid (s : State) (x : Nat) (op : Option RoutingOp) : (s.setRouting x op).nextUid = s.nextUid := rfl
@[simp] theorem State.setRouting_freeCtr (s : State) (x : Nat) (op : Option RoutingOp) : (s.setRouting x op).freeCtr = s.freeCtr := rfl
@[simp] theorem State.setRouting_out (s : State) (x : Nat) (op : Option RoutingOp) : (s.setRouting x op).out = s.out := rfl
@[simp] theorem State.setRouting_pending (s : State) (x : Nat) (op : Option RoutingOp) : (s.setRouting x op).pending = s.pending := rfl

/-! ## send -/

@[simp] theorem State.send_fuses (s : State) (t : Tlp) : (s.send t).fuses = s.fuses := rfl
@[simp] theorem State.send_pins (s : State) (t : Tlp) : (s.send t).pins = s.pins := rfl
@[simp] theorem State.send_cfg (s : State) (t : Tlp) : (s.send t).cfg = s.cfg := rfl
@[simp] theorem State.send_bar0 (s : State) (t : Tlp) : (s.send t).bar0 = s.bar0 := rfl
@[simp] theorem State.send_carrels (s : State) (t : Tlp) : (s.send t).carrels = s.carrels := rfl
@[simp] theorem State.send_session (s : State) (t : Tlp) : (s.send t).session = s.session := rfl
@[simp] theorem State.send_fw (s : State) (t : Tlp) : (s.send t).fw = s.fw := rfl
@[simp] theorem State.send_catalogue (s : State) (t : Tlp) : (s.send t).catalogue = s.catalogue := rfl
@[simp] theorem State.send_phys (s : State) (t : Tlp) : (s.send t).phys = s.phys := rfl
@[simp] theorem State.send_ledger (s : State) (t : Tlp) : (s.send t).ledger = s.ledger := rfl
@[simp] theorem State.send_mem (s : State) (t : Tlp) : (s.send t).mem = s.mem := rfl
@[simp] theorem State.send_memStacks (s : State) (t : Tlp) : (s.send t).memStacks = s.memStacks := rfl
@[simp] theorem State.send_tr (s : State) (t : Tlp) : (s.send t).tr = s.tr := rfl
@[simp] theorem State.send_queues (s : State) (t : Tlp) : (s.send t).queues = s.queues := rfl
@[simp] theorem State.send_clusters (s : State) (t : Tlp) : (s.send t).clusters = s.clusters := rfl
@[simp] theorem State.send_conv (s : State) (t : Tlp) : (s.send t).conv = s.conv := rfl
@[simp] theorem State.send_routers (s : State) (t : Tlp) : (s.send t).routers = s.routers := rfl
@[simp] theorem State.send_routing (s : State) (t : Tlp) : (s.send t).routing = s.routing := rfl
@[simp] theorem State.send_dma (s : State) (t : Tlp) : (s.send t).dma = s.dma := rfl
@[simp] theorem State.send_hostReads (s : State) (t : Tlp) : (s.send t).hostReads = s.hostReads := rfl
@[simp] theorem State.send_faults (s : State) (t : Tlp) : (s.send t).faults = s.faults := rfl
@[simp] theorem State.send_faultWait (s : State) (t : Tlp) : (s.send t).faultWait = s.faultWait := rfl
@[simp] theorem State.send_faultSeq (s : State) (t : Tlp) : (s.send t).faultSeq = s.faultSeq := rfl
@[simp] theorem State.send_tables (s : State) (t : Tlp) : (s.send t).tables = s.tables := rfl
@[simp] theorem State.send_policies (s : State) (t : Tlp) : (s.send t).policies = s.policies := rfl
@[simp] theorem State.send_consorts (s : State) (t : Tlp) : (s.send t).consorts = s.consorts := rfl
@[simp] theorem State.send_coll (s : State) (t : Tlp) : (s.send t).coll = s.coll := rfl
@[simp] theorem State.send_update (s : State) (t : Tlp) : (s.send t).update = s.update := rfl
@[simp] theorem State.send_ww (s : State) (t : Tlp) : (s.send t).ww = s.ww := rfl
@[simp] theorem State.send_power (s : State) (t : Tlp) : (s.send t).power = s.power := rfl
@[simp] theorem State.send_injections (s : State) (t : Tlp) : (s.send t).injections = s.injections := rfl
@[simp] theorem State.send_spine (s : State) (t : Tlp) : (s.send t).spine = s.spine := rfl
@[simp] theorem State.send_host (s : State) (t : Tlp) : (s.send t).host = s.host := rfl
@[simp] theorem State.send_nextUid (s : State) (t : Tlp) : (s.send t).nextUid = s.nextUid := rfl
@[simp] theorem State.send_freeCtr (s : State) (t : Tlp) : (s.send t).freeCtr = s.freeCtr := rfl
@[simp] theorem State.send_pending (s : State) (t : Tlp) : (s.send t).pending = s.pending := rfl

/-! ## clearPend -/

@[simp] theorem State.clearPend_fuses (s : State) (k : Nat) : (s.clearPend k).fuses = s.fuses := rfl
@[simp] theorem State.clearPend_pins (s : State) (k : Nat) : (s.clearPend k).pins = s.pins := rfl
@[simp] theorem State.clearPend_link (s : State) (k : Nat) : (s.clearPend k).link = s.link := rfl
@[simp] theorem State.clearPend_cfg (s : State) (k : Nat) : (s.clearPend k).cfg = s.cfg := rfl
@[simp] theorem State.clearPend_carrels (s : State) (k : Nat) : (s.clearPend k).carrels = s.carrels := rfl
@[simp] theorem State.clearPend_session (s : State) (k : Nat) : (s.clearPend k).session = s.session := rfl
@[simp] theorem State.clearPend_fw (s : State) (k : Nat) : (s.clearPend k).fw = s.fw := rfl
@[simp] theorem State.clearPend_catalogue (s : State) (k : Nat) : (s.clearPend k).catalogue = s.catalogue := rfl
@[simp] theorem State.clearPend_phys (s : State) (k : Nat) : (s.clearPend k).phys = s.phys := rfl
@[simp] theorem State.clearPend_ledger (s : State) (k : Nat) : (s.clearPend k).ledger = s.ledger := rfl
@[simp] theorem State.clearPend_mem (s : State) (k : Nat) : (s.clearPend k).mem = s.mem := rfl
@[simp] theorem State.clearPend_memStacks (s : State) (k : Nat) : (s.clearPend k).memStacks = s.memStacks := rfl
@[simp] theorem State.clearPend_tr (s : State) (k : Nat) : (s.clearPend k).tr = s.tr := rfl
@[simp] theorem State.clearPend_queues (s : State) (k : Nat) : (s.clearPend k).queues = s.queues := rfl
@[simp] theorem State.clearPend_clusters (s : State) (k : Nat) : (s.clearPend k).clusters = s.clusters := rfl
@[simp] theorem State.clearPend_conv (s : State) (k : Nat) : (s.clearPend k).conv = s.conv := rfl
@[simp] theorem State.clearPend_routers (s : State) (k : Nat) : (s.clearPend k).routers = s.routers := rfl
@[simp] theorem State.clearPend_routing (s : State) (k : Nat) : (s.clearPend k).routing = s.routing := rfl
@[simp] theorem State.clearPend_dma (s : State) (k : Nat) : (s.clearPend k).dma = s.dma := rfl
@[simp] theorem State.clearPend_hostReads (s : State) (k : Nat) : (s.clearPend k).hostReads = s.hostReads := rfl
@[simp] theorem State.clearPend_faults (s : State) (k : Nat) : (s.clearPend k).faults = s.faults := rfl
@[simp] theorem State.clearPend_faultWait (s : State) (k : Nat) : (s.clearPend k).faultWait = s.faultWait := rfl
@[simp] theorem State.clearPend_faultSeq (s : State) (k : Nat) : (s.clearPend k).faultSeq = s.faultSeq := rfl
@[simp] theorem State.clearPend_tables (s : State) (k : Nat) : (s.clearPend k).tables = s.tables := rfl
@[simp] theorem State.clearPend_policies (s : State) (k : Nat) : (s.clearPend k).policies = s.policies := rfl
@[simp] theorem State.clearPend_consorts (s : State) (k : Nat) : (s.clearPend k).consorts = s.consorts := rfl
@[simp] theorem State.clearPend_coll (s : State) (k : Nat) : (s.clearPend k).coll = s.coll := rfl
@[simp] theorem State.clearPend_update (s : State) (k : Nat) : (s.clearPend k).update = s.update := rfl
@[simp] theorem State.clearPend_ww (s : State) (k : Nat) : (s.clearPend k).ww = s.ww := rfl
@[simp] theorem State.clearPend_power (s : State) (k : Nat) : (s.clearPend k).power = s.power := rfl
@[simp] theorem State.clearPend_injections (s : State) (k : Nat) : (s.clearPend k).injections = s.injections := rfl
@[simp] theorem State.clearPend_spine (s : State) (k : Nat) : (s.clearPend k).spine = s.spine := rfl
@[simp] theorem State.clearPend_host (s : State) (k : Nat) : (s.clearPend k).host = s.host := rfl
@[simp] theorem State.clearPend_nextUid (s : State) (k : Nat) : (s.clearPend k).nextUid = s.nextUid := rfl
@[simp] theorem State.clearPend_freeCtr (s : State) (k : Nat) : (s.clearPend k).freeCtr = s.freeCtr := rfl
@[simp] theorem State.clearPend_out (s : State) (k : Nat) : (s.clearPend k).out = s.out := rfl
@[simp] theorem State.clearPend_pending (s : State) (k : Nat) : (s.clearPend k).pending = s.pending := rfl

/-! ## What the updates write -/

@[simp] theorem State.fixed_fuses (s t : State) : (s.fixed t).fuses = s.fuses := rfl
@[simp] theorem State.fixed_pending (s t : State) : (s.fixed t).pending = s.pending := rfl
@[simp] theorem State.latched_lock (s t : State) : (s.latched t).bar0.lock = t.bar0.lock ||| s.bar0.lock := rfl
@[simp] theorem State.latched_debugEver (s t : State) : (s.latched t).fw.debugEver = (t.fw.debugEver || s.fw.debugEver) := rfl
@[simp] theorem State.latched_injectEver (s t : State) : (s.latched t).fw.injectEver = (t.fw.injectEver || s.fw.injectEver) := rfl
@[simp] theorem State.latched_debugOn (s t : State) : (s.latched t).fw.debugOn = t.fw.debugOn := rfl
@[simp] theorem State.setStore_mem (s : State) (sp : Space) (st : Store) : (s.setStore sp st).mem = s.mem.setStore sp st := rfl
@[simp] theorem State.modCluster_clusters (s : State) (e : ClusterId) (f : Cluster → Cluster) :
    (s.modCluster e f).clusters = s.clusters.modify e.index f := rfl
@[simp] theorem State.modCarrel_carrels (s : State) (k : Nat) (f : Carrel → Carrel) :
    (s.modCarrel k f).carrels = s.carrels.modify k f := rfl
@[simp] theorem State.modConsort_consorts (s : State) (x : Nat) (f : ConsortEngine → ConsortEngine) :
    (s.modConsort x f).consorts = s.consorts.modify x f := rfl
@[simp] theorem State.send_out (s : State) (t : Tlp) : (s.send t).out = s.out ++ [.tlp t s.cfg.ecrcGenerate] := rfl
@[simp] theorem State.clearPend_pend (s : State) (k : Nat) :
    (s.clearPend k).bar0.pend = s.bar0.pend &&& ~~~(1#64 <<< k) := rfl

/-- A state that keeps the fuses, the queue, the LOCK bits and the ever flags is what `after` answers it as. -/
theorem State.latched_fixed_of (s t : State) (hf : t.fuses = s.fuses) (hp : t.pending = s.pending)
    (hl : t.bar0.lock ||| s.bar0.lock = t.bar0.lock) (hd : (t.fw.debugEver || s.fw.debugEver) = t.fw.debugEver)
    (hi : (t.fw.injectEver || s.fw.injectEver) = t.fw.injectEver) : s.latched (s.fixed t) = t := by
  simp only [State.latched, State.fixed, hl, hd, hi, ← hf, ← hp]

/-- Where a command answers a next state, its meaning has answered one, from which only the fuses, the queue, the LOCK bits and the
ever flags are set. -/
theorem State.after_next (s t : State) (o : Host.Outcome State Fault Refusal) :
    s.after o = .next t ↔ ∃ u, o = .next u ∧ t = s.latched (s.fixed u) := by
  cases o <;> simp [State.after, eq_comm]

/-- The same of a reset of the whole part. -/
theorem State.afterReset_next (s t : State) (o : Host.Outcome State Fault Refusal) :
    s.afterReset o = .next t ↔ ∃ u, o = .next u ∧ t = s.fixed u := by
  cases o <;> simp [State.afterReset, eq_comm]

/-- A fault of a command is a fault of its meaning. -/
theorem State.after_fault (s : State) (f : Fault) (o : Host.Outcome State Fault Refusal) : s.after o = .fault f ↔ o = .fault f := by
  cases o <;> simp [State.after]

end Sys2Proof.Machine
end

