-- ==== Sys2Proof/Laws/Memory.lean ====
section
/-! SUPPORT. Memory: what its operations read and write, and that each keeps the canonical form. -/

namespace Sys2Proof.Machine

/-! ## Rising addresses -/

/-- Rising addresses, as a pairwise order. -/
theorem risingCells_iff (l : List Host.Cell) : risingCells l = true ↔ l.Pairwise fun a b => a.1 < b.1 := by
  induction l with
  | nil => simp [risingCells]
  | cons a l ih =>
    cases l with
    | nil => simp [risingCells]
    | cons b l =>
      rw [risingCells, Bool.and_eq_true, ih, decide_eq_true_iff, List.pairwise_cons (a := a)]
      constructor
      · rintro ⟨hab, hl⟩
        refine ⟨fun c hc => ?_, hl⟩
        rcases List.mem_cons.1 hc with rfl | hc
        · exact hab
        · exact hab.trans ((List.pairwise_cons.1 hl).1 c hc)
      · rintro ⟨ha, hl⟩
        exact ⟨ha b (by simp), hl⟩

/-- The canonical form, as propositions. -/
theorem Store.wf_iff (m : Store) : m.wf = true ↔ (m.cells.Pairwise fun a b => a.1 < b.1)
    ∧ ∀ c ∈ m.cells, c.2 ≠ 0#8 ∧ ∀ u ∈ m.undef, c.1 < u.lo ∨ u.hi ≤ c.1 := by
  simp [Store.wf, risingCells_iff, List.all_eq_true]

theorem cellsFrom_mem (a : Nat) (bs : List Byte) : ∀ c ∈ cellsFrom a bs, c.2 ≠ 0#8 ∧ a ≤ c.1 ∧ c.1 < a + bs.length := by
  induction bs generalizing a with
  | nil => simp [cellsFrom]
  | cons b bs ih =>
    intro c hc
    simp only [cellsFrom] at hc
    split at hc
    · obtain ⟨h0, h1, h2⟩ := ih (a + 1) c hc
      exact ⟨h0, by omega, by simp only [List.length_cons]; omega⟩
    · rcases List.mem_cons.1 hc with rfl | hc
      · simp_all
      · obtain ⟨h0, h1, h2⟩ := ih (a + 1) c hc
        exact ⟨h0, by omega, by simp only [List.length_cons]; omega⟩

theorem cellsFrom_rising (a : Nat) (bs : List Byte) : (cellsFrom a bs).Pairwise fun x y => x.1 < y.1 := by
  induction bs generalizing a with
  | nil => simp [cellsFrom]
  | cons b bs ih =>
    simp only [cellsFrom]
    split
    · exact ih (a + 1)
    · refine List.pairwise_cons.2 ⟨fun c hc => ?_, ih (a + 1)⟩
      have := (cellsFrom_mem (a + 1) bs c hc).2.1
      simp only
      omega

/-- What a cut leaves of a range lies in it, and outside the cut. -/
theorem Undef.minus_mem (lo hi : Nat) (u v : Undef) (h : v ∈ u.minus lo hi) :
    v.tag = u.tag ∧ u.lo ≤ v.lo ∧ v.hi ≤ u.hi ∧ (v.hi ≤ lo ∨ hi ≤ v.lo) := by
  simp only [Undef.minus, List.mem_append] at h
  rcases h with h | h
  · split at h
    · rw [List.mem_singleton.1 h]; exact ⟨rfl, Nat.le_refl _, by simp only; omega, by simp only; omega⟩
    · simp at h
  · split at h
    · rw [List.mem_singleton.1 h]; exact ⟨rfl, by simp only; omega, Nat.le_refl _, by simp only; omega⟩
    · simp at h

/-! ## The canonical form is kept -/

theorem Store.write_wf (m : Store) (a : Nat) (bs : List Byte) (h : m.wf = true) : (m.write a bs).wf = true := by
  rw [Store.wf_iff] at h ⊢
  obtain ⟨hp, hc⟩ := h
  simp only [Store.write]
  refine ⟨?_, fun c hcm => ?_⟩
  · refine List.pairwise_append.2 ⟨List.pairwise_append.2 ⟨hp.filter _, cellsFrom_rising a bs, ?_⟩, hp.filter _, ?_⟩
    · intro x hx y hy
      have h1 := (List.mem_filter.1 hx).2
      have h2 := (cellsFrom_mem a bs y hy).2.1
      simp at h1; omega
    · intro x hx y hy
      have h2 := (List.mem_filter.1 hy).2
      rcases List.mem_append.1 hx with hx | hx
      · have h1 := (List.mem_filter.1 hx).2
        simp at h1 h2; omega
      · have h1 := (cellsFrom_mem a bs x hx).2.2
        simp at h2; omega
  · have out : ∀ u ∈ m.undef.flatMap (Undef.minus a (a + bs.length)),
        ∃ w ∈ m.undef, w.lo ≤ u.lo ∧ u.hi ≤ w.hi ∧ (u.hi ≤ a ∨ a + bs.length ≤ u.lo) := by
      intro u hu
      obtain ⟨w, hw, hu⟩ := List.mem_flatMap.1 hu
      have := Undef.minus_mem _ _ _ _ hu
      exact ⟨w, hw, this.2.1, this.2.2.1, this.2.2.2⟩
    rcases List.mem_append.1 hcm with hcm | hcm
    · rcases List.mem_append.1 hcm with hcm | hcm
      · have hc' := hc c (List.mem_filter.1 hcm).1
        refine ⟨hc'.1, fun u hu => ?_⟩
        obtain ⟨w, hw, h1, h2, -⟩ := out u hu
        have := hc'.2 w hw
        omega
      · obtain ⟨h0, h1, h2⟩ := cellsFrom_mem a bs c hcm
        refine ⟨h0, fun u hu => ?_⟩
        obtain ⟨w, -, -, -, h3⟩ := out u hu
        omega
    · have hc' := hc c (List.mem_filter.1 hcm).1
      refine ⟨hc'.1, fun u hu => ?_⟩
      obtain ⟨w, hw, h1, h2, -⟩ := out u hu
      have := hc'.2 w hw
      omega

theorem Store.forget_wf (m : Store) (lo hi tag : Nat) (h : m.wf = true) : (m.forget lo hi tag).wf = true := by
  rw [Store.wf_iff] at h ⊢
  obtain ⟨hp, hc⟩ := h
  simp only [Store.forget]
  refine ⟨hp.filter _, fun c hcm => ?_⟩
  obtain ⟨hm, hout⟩ := List.mem_filter.1 hcm
  refine ⟨(hc c hm).1, fun u hu => ?_⟩
  rcases List.mem_cons.1 hu with rfl | hu
  · simpa using hout
  · obtain ⟨w, hw, hu⟩ := List.mem_flatMap.1 hu
    have h1 := Undef.minus_mem _ _ _ _ hu
    have h2 := (hc c hm).2 w hw
    omega

/-- Poison is no part of the canonical form. -/
@[simp] theorem Store.poison_wf (m : Store) (p : List Nat) : Store.wf { m with poison := p } = m.wf := rfl

@[simp] theorem Store.heal_wf (m : Store) (p : Nat → Bool) : (m.heal p).wf = m.wf := rfl

theorem Memory.setStore_wf (m : Memory) (sp : Space) (st : Store) (h : m.wf = true) (hs : st.wf = true) :
    (m.setStore sp st).wf = true := by
  simp only [Memory.wf, Bool.and_eq_true] at h ⊢
  cases sp <;> simp_all [Memory.setStore]

theorem Memory.store_wf (m : Memory) (sp : Space) (h : m.wf = true) : (m.store sp).wf = true := by
  simp only [Memory.wf, Bool.and_eq_true] at h
  cases sp <;> simp_all [Memory.store]

/-- Reset memory lists nothing, and is in canonical form. -/
theorem State.reset_mem_wf : State.reset.mem.wf = true := by decide

/-! ## Reading what was written -/

@[simp] theorem Memory.store_setStore (m : Memory) (sp : Space) (st : Store) : (m.setStore sp st).store sp = st := by
  cases sp <;> rfl

theorem Memory.store_setStore_ne (m : Memory) (sp sp' : Space) (st : Store) (h : sp' ≠ sp) :
    (m.setStore sp st).store sp' = m.store sp' := by
  cases sp <;> cases sp' <;> first | rfl | exact absurd rfl h

@[simp] theorem Memory.setStore_store (m : Memory) (sp : Space) : m.setStore sp (m.store sp) = m := by
  cases sp <;> rfl

theorem cellsFrom_find (a : Nat) (bs : List Byte) (x : Nat) (ha : a ≤ x) (hx : x < a + bs.length) :
    (((cellsFrom a bs).find? fun c => c.1 == x).map fun c => c.2).getD 0#8 = bs.getD (x - a) 0#8 := by
  induction bs generalizing a with
  | nil => simp at hx; omega
  | cons b bs ih =>
    by_cases hax : a = x
    · subst hax
      simp only [cellsFrom]
      split
      · rename_i hb
        have hn : (cellsFrom (a + 1) bs).find? (fun c => c.1 == a) = none := by
          rw [List.find?_eq_none]
          intro c hc
          have := (cellsFrom_mem (a + 1) bs c hc).2.1
          simp; omega
        rw [hn]
        simp at hb
        simp [hb]
      · simp
    · have h1 : x - a = (x - (a + 1)) + 1 := by omega
      have h2 := ih (a + 1) (by omega) (by simp only [List.length_cons] at hx; omega)
      rw [h1, List.getD_cons_succ, ← h2]
      simp only [cellsFrom]
      split
      · rfl
      · rw [List.find?_cons_of_neg (by simpa using hax)]

/-- The range that gives an undefined byte its contents, if any, after a cut: the same one outside the cut, none in it. -/
theorem find_minus (u : Undef) (lo hi x : Nat) :
    ((Undef.minus lo hi u).find? fun v => decide (v.lo ≤ x) && decide (x < v.hi)).map (fun v => v.tag)
      = if (lo ≤ x ∧ x < hi) ∨ ¬ (u.lo ≤ x ∧ x < u.hi) then none else some u.tag := by
  by_cases h : (lo ≤ x ∧ x < hi) ∨ ¬ (u.lo ≤ x ∧ x < u.hi)
  · rw [if_pos h, Option.map_eq_none_iff, List.find?_eq_none]
    intro v hv
    have := Undef.minus_mem lo hi u v hv
    simp only [Bool.and_eq_true, decide_eq_true_eq]
    omega
  · rw [if_neg h]
    cases hf : (Undef.minus lo hi u).find? (fun v => decide (v.lo ≤ x) && decide (x < v.hi)) with
    | some v => simp [(Undef.minus_mem lo hi u v (List.mem_of_find?_eq_some hf)).1]
    | none =>
      exfalso
      rw [List.find?_eq_none] at hf
      by_cases hlo : x < lo
      · have := hf { u with hi := min u.hi lo } (by
          simp only [Undef.minus, List.mem_append]; left; rw [if_pos (by omega)]; simp)
        simp only [Bool.and_eq_true, decide_eq_true_eq] at this; omega
      · have := hf { u with lo := max u.lo hi } (by
          simp only [Undef.minus, List.mem_append]; right; rw [if_pos (by omega)]; simp)
        simp only [Bool.and_eq_true, decide_eq_true_eq] at this; omega

theorem unlisted_eq (us : List Undef) (x : Nat) :
    unlisted us x = (((us.find? fun u => decide (u.lo ≤ x) && decide (x < u.hi)).map fun u => u.tag).map
      fun k => Config.freeByte k x).getD 0#8 := by
  unfold unlisted
  cases us.find? fun u => decide (u.lo ≤ x) && decide (x < u.hi) <;> rfl

/-- What the cuts of ranges leave undefined: outside the cut as before, in it nothing. -/
theorem unlisted_minus (us : List Undef) (lo hi x : Nat) :
    unlisted (us.flatMap (Undef.minus lo hi)) x = if lo ≤ x ∧ x < hi then 0#8 else unlisted us x := by
  have key : ((us.flatMap (Undef.minus lo hi)).find? fun u => decide (u.lo ≤ x) && decide (x < u.hi)).map (fun u => u.tag)
      = if lo ≤ x ∧ x < hi then none
        else (us.find? fun u => decide (u.lo ≤ x) && decide (x < u.hi)).map fun u => u.tag := by
    induction us with
    | nil => simp
    | cons u us ih =>
      rw [List.flatMap_cons, List.find?_append, Option.map_or, find_minus, ih, List.find?_cons]
      by_cases hx : lo ≤ x ∧ x < hi
      · simp [hx]
      · by_cases hu : u.lo ≤ x ∧ x < u.hi
        · simp [hx, hu]
        · have : (decide (u.lo ≤ x) && decide (x < u.hi)) = false := by
            rw [Bool.eq_false_iff]; simpa using hu
          simp [hx, hu, this]
  rw [unlisted_eq, unlisted_eq, key]
  split <;> simp

theorem Store.byteAt_eq (m : Store) (x : Nat) :
    m.byteAt x = ((m.cells.find? fun c => c.1 == x).map fun c => c.2).getD (unlisted m.undef x) := by
  unfold Store.byteAt
  cases m.cells.find? fun c => c.1 == x <;> rfl

/-- Cells picked by address: those at x are all there or none is. -/
theorem find_filter_addr (l : List Host.Cell) (p : Nat → Bool) (x : Nat) :
    (l.filter fun c => p c.1).find? (fun c => c.1 == x) = if p x then l.find? fun c => c.1 == x else none := by
  induction l with
  | nil => simp
  | cons c l ih =>
    by_cases hc : c.1 = x
    · by_cases hp : p x
      · simp [hc, hp]
      · have : p c.1 = false := by rw [hc]; simpa using hp
        simp only [List.filter_cons, this, Bool.false_eq_true, if_false, ih, hp]
    · by_cases hp : p c.1
      · simp [hp, hc, ih]
      · simp [hp, hc, ih]

/-- A write leaves its bytes where it puts them, and every other byte alone. -/
theorem Store.byteAt_write (m : Store) (a : Nat) (bs : List Byte) (x : Nat) :
    (m.write a bs).byteAt x = if a ≤ x ∧ x < a + bs.length then bs.getD (x - a) 0#8 else m.byteAt x := by
  rw [Store.byteAt_eq, Store.byteAt_eq]
  simp only [Store.write, List.find?_append, unlisted_minus]
  rw [find_filter_addr m.cells (fun n => decide (n < a)), find_filter_addr m.cells (fun n => decide (a + bs.length ≤ n))]
  by_cases hx : a ≤ x ∧ x < a + bs.length
  · have h1 : decide (x < a) = false := decide_eq_false (by omega)
    have h2 : decide (a + bs.length ≤ x) = false := decide_eq_false (by omega)
    simp only [h1, h2, Bool.false_eq_true, if_false, Option.none_or, Option.or_none, hx, and_self, if_true]
    exact cellsFrom_find a bs x hx.1 hx.2
  · have h0 : (cellsFrom a bs).find? (fun c => c.1 == x) = none := by
      rw [List.find?_eq_none]; intro c hc; have := (cellsFrom_mem a bs c hc).2; simp; omega
    rw [if_neg hx, if_neg hx, h0]
    by_cases hlo : x < a
    · have h2 : decide (a + bs.length ≤ x) = false := decide_eq_false (by omega)
      simp [hlo, h2]
    · have h2 : decide (a + bs.length ≤ x) = true := decide_eq_true (by omega)
      simp [hlo, h2]

/-- What is forgotten is free; every other byte is as before. -/
theorem Store.byteAt_forget (m : Store) (lo hi tag x : Nat) :
    (m.forget lo hi tag).byteAt x = if lo ≤ x ∧ x < hi then Config.freeByte tag x else m.byteAt x := by
  rw [Store.byteAt_eq, Store.byteAt_eq]
  simp only [Store.forget]
  rw [find_filter_addr m.cells (fun n => decide (n < lo) || decide (hi ≤ n))]
  have hu : unlisted (⟨lo, hi, tag⟩ :: m.undef.flatMap (Undef.minus lo hi)) x
      = if lo ≤ x ∧ x < hi then Config.freeByte tag x else unlisted m.undef x := by
    have := unlisted_minus m.undef lo hi x
    simp only [unlisted, List.find?_cons] at this ⊢
    by_cases hx : lo ≤ x ∧ x < hi
    · simp [hx]
    · have h : (decide (lo ≤ x) && decide (x < hi)) = false := by rw [Bool.eq_false_iff]; simpa using hx
      rw [if_neg hx] at this ⊢
      rw [h]
      exact this
  rw [hu]
  by_cases hx : lo ≤ x ∧ x < hi
  · have : (decide (x < lo) || decide (hi ≤ x)) = false := by simp; omega
    simp [this, hx]
  · have : (decide (x < lo) || decide (hi ≤ x)) = true := by simp; omega
    simp [this, hx]

theorem Store.zero_wf (m : Store) (lo hi : Nat) (h : m.wf = true) : (m.zero lo hi).wf = true := by
  rw [Store.wf_iff] at h ⊢
  obtain ⟨hp, hc⟩ := h
  simp only [Store.zero]
  refine ⟨hp.filter _, fun c hcm => ?_⟩
  obtain ⟨hm, -⟩ := List.mem_filter.1 hcm
  refine ⟨(hc c hm).1, fun u hu => ?_⟩
  obtain ⟨w, hw, hu⟩ := List.mem_flatMap.1 hu
  have h1 := Undef.minus_mem _ _ _ _ hu
  have h2 := (hc c hm).2 w hw
  omega

end Sys2Proof.Machine
end

