-- ==== Sys2Proof/Laws/Access.lean ====
section
/-! SUPPORT. What messages to the host, Ledger records, reads and writes of memory do to a state, each said once; and that they keep memory
in its canonical form. -/

namespace Sys2Proof.Machine

/-! ## Messages (R84, R85) -/

/-- A message that may be sent changes its pending bit, the link and the output, and nothing else. -/
theorem State.flushVector_frame (s : State) (v : Nat) : ∃ p l o,
    s.flushVector v = { s with bar0 := { s.bar0 with pba := p }, link := l, out := s.out ++ o } := by
  unfold State.flushVector
  split
  · split
    · exact ⟨_, _, _, rfl⟩
    · exact ⟨s.bar0.pba, s.link, [], by simp⟩
  · exact ⟨s.bar0.pba, s.link, [], by simp⟩

/-- An event of an interrupt source likewise. -/
theorem State.raise_frame (s : State) (i : Nat) : ∃ p l o,
    s.raise i = { s with bar0 := { s.bar0 with pba := p }, link := l, out := s.out ++ o } := by
  unfold State.raise
  split
  · split
    · exact ⟨s.bar0.pba, s.link, [], by simp⟩
    · obtain ⟨p, l, o, h⟩ := State.flushVector_frame
        ({ s with bar0 := { s.bar0 with pba := s.bar0.pba ||| (1#256 <<< (‹IntEntry›).vector.toNat) } })
        (‹IntEntry›).vector.toNat
      exact ⟨p, l, o, by rw [h]⟩
  · exact ⟨s.bar0.pba, s.link, [], by simp⟩

/-- A Ledger record changes the Ledger, its count of overwritten records, a free value, and what its message changes. -/
theorem State.record_frame (s : State) (r : Record) : ∃ g n c p l o,
    (s.record r).2 = { s with ledger := g, host := { s.host with overwritten := n }, freeCtr := c, bar0 := { s.bar0 with pba := p },
                              link := l, out := s.out ++ o } := by
  unfold State.record
  split
  · exact ⟨s.ledger, s.host.overwritten, s.freeCtr, s.bar0.pba, s.link, [], by simp⟩
  · have ht : ∃ c, s.timeMs.2 = { s with freeCtr := c } := by
      unfold State.timeMs
      split
      · exact ⟨_, rfl⟩
      · exact ⟨s.freeCtr, rfl⟩
    obtain ⟨c, ht⟩ := ht
    simp only [ht]
    obtain ⟨p, l, o, h⟩ := State.raise_frame _ 64
    exact ⟨_, _, _, _, _, _, h⟩

/-- An answer changes its carrel, and what its message changes. -/
theorem State.respond_frame (s : State) (k : Nat) (q : Word32) (op : Nat) (tag : Word32) (a : Answer) : ∃ p l o,
    s.respond k q op tag a = { s with
      carrels := s.carrels.modify k fun c =>
        { c with response := ⟨op, tag, a.status, a.detail, a.ticket, a.payload⟩, rspSeq := q }
      bar0 := { s.bar0 with pba := p }, link := l, out := s.out ++ o } := by
  unfold State.respond
  obtain ⟨p, l, o, h⟩ := State.raise_frame (s.modCarrel k fun c =>
    { c with response := ⟨op, tag, a.status, a.detail, a.ticket, a.payload⟩, rspSeq := q }) k
  exact ⟨p, l, o, h⟩

/-! ## Reads of clean memory (R389) -/

theorem Clean.store {s : State} (h : Clean s) (sp : Space) : (s.mem.store sp).poison = [] := by
  obtain ⟨h1, h2, h3, -⟩ := h
  cases sp <;> assumption

theorem State.injectEvent_none (s : State) (k u : Nat) (h : s.injections = []) : s.injectEvent k u = (0, s) := by
  simp [State.injectEvent, h]

/-- R27: a message over the Spine is counted by its links, and changes nothing else. -/
theorem State.crossSpine_frame (s : State) (src dst : DieKind × Nat) (n : Nat) :
    ∃ l, s.crossSpine src dst n = { s with spine := l } := by
  unfold State.crossSpine
  split
  · exact ⟨s.spine, rfl⟩
  · exact ⟨_, rfl⟩

theorem State.crossForRead_frame (s : State) (r : Reader) (sp : Space) (o : Nat) :
    ∃ l, s.crossForRead r sp o = { s with spine := l } := by
  unfold State.crossForRead
  split
  · exact ⟨s.spine, rfl⟩
  · rename_i d _
    obtain ⟨l, hl⟩ := s.crossSpine_frame d (s.dieOfPlace sp o) 0
    obtain ⟨l', hl'⟩ := State.crossSpine_frame { s with spine := l } (s.dieOfPlace sp o) d sp.unit
    exact ⟨l', by simp only [hl, hl']⟩

theorem State.crossForWrite_frame (s : State) (r : Reader) (sp : Space) (o n : Nat) :
    ∃ l, s.crossForWrite r sp o n = { s with spine := l } := by
  unfold State.crossForWrite
  split
  · exact ⟨s.spine, rfl⟩
  · exact s.crossSpine_frame _ _ _

/-- A protected unit of clean memory reads without error; the read and its way over the Spine are counted, nothing else. -/
theorem State.readUnit_clean (s : State) (r : Reader) (sp : Space) (o : Nat) (h : Clean s) :
    ∃ m l, s.readUnit r sp o = (none, { s with memStacks := m, spine := l }) := by
  obtain ⟨l, hl⟩ := s.crossForRead_frame r sp o
  suffices ∀ t : State, Clean t → s.crossForRead r sp o = t → ∃ m, s.readUnit r sp o = (none, { t with memStacks := m }) by
    obtain ⟨m, hm⟩ := this { s with spine := l } h hl
    exact ⟨m, l, hm⟩
  intro t ht e
  have hp := ht.store sp
  have calm (f : Stack → Stack) (k u : Nat) : (t.modStack sp k f).injectEvent u k = (0, t.modStack sp k f) :=
    State.injectEvent_none _ _ _ ht.2.2.2
  unfold State.readUnit
  rw [e]
  cases sp
  · refine ⟨(t.modStack .near (t.place .near o).1 fun x => (x.accessed o).count fun c =>
      { c with readBursts := bump c.readBursts 1 }).memStacks, ?_⟩
    simp only [calm]
    simp [hp]
    rfl
  · refine ⟨(t.modStack .dep (t.place .dep o).1 fun x => (x.accessed o).count fun c =>
      { c with readBursts := bump c.readBursts 1 }).memStacks, ?_⟩
    simp only [calm]
    simp [hp]
    rfl
  · refine ⟨t.memStacks, ?_⟩
    have hq : t.mem.loc.poison = [] := hp
    simp only [State.injectEvent_none _ _ _ ht.2.2.2]
    split <;> simp [hq]

/-- What accesses count leaves memory clean. -/
theorem Clean.counted {s : State} (h : Clean s) (m : List Stack) (l : List SpineLink) : Clean { s with memStacks := m, spine := l } := h

theorem State.readUnits_clean (s : State) (r : Reader) (sp : Space) (os : List Nat) (h : Clean s) :
    ∃ m l, s.readUnits r sp os = (none, { s with memStacks := m, spine := l }) := by
  induction os generalizing s with
  | nil => exact ⟨s.memStacks, s.spine, rfl⟩
  | cons o os ih =>
    obtain ⟨m, l, hm⟩ := s.readUnit_clean r sp o h
    obtain ⟨m', l', hm'⟩ := ih { s with memStacks := m, spine := l } (h.counted m l)
    exact ⟨m', l', by simp only [State.readUnits, hm, hm']⟩

/-- R389: a read of clean memory answers its bytes, and only counts. -/
theorem State.readMem_clean (s : State) (r : Reader) (sp : Space) (o n : Nat) (h : Clean s) :
    ∃ m l, s.readMem r sp o n = (.ok ((s.mem.store sp).read o n), { s with memStacks := m, spine := l }) := by
  obtain ⟨m, l, hm⟩ := s.readUnits_clean r sp (unitsOf sp o n) h
  exact ⟨m, l, by simp only [State.readMem, hm]⟩

/-! ## Writes (R381, R390) -/

/-- Healing a store without poison forgets at most what injection has planted. -/
theorem Store.heal_clean (m : Store) (p : Nat → Bool) (h : m.poison = []) : ∃ q, m.heal p = { m with planted := q } :=
  ⟨m.planted.filter fun u => !p u, by simp [Store.heal, h]⟩

/-- A write within one unit of clean memory stores its bytes, and otherwise only counts. -/
theorem State.writeUnit_clean (s : State) (r : Reader) (sp : Space) (o : Nat) (bs : List Byte) (h : Clean s) :
    ∃ m l q, s.writeUnit r sp o bs
      = { s with memStacks := m, spine := l, mem := s.mem.setStore sp { (s.mem.store sp).write o bs with planted := q } } := by
  obtain ⟨l, hl⟩ := s.crossForWrite_frame r sp o bs.length
  suffices ∀ t : State, Clean t → s.crossForWrite r sp o bs.length = t → ∃ m q, s.writeUnit r sp o bs
      = { t with memStacks := m, mem := t.mem.setStore sp { (t.mem.store sp).write o bs with planted := q } } by
    obtain ⟨m, q, hm⟩ := this { s with spine := l } h hl
    exact ⟨m, l, q, hm⟩
  intro t ht e
  have hc : ((t.mem.store sp).poison.contains (o / sp.unit) && !(bs.length == sp.unit)) = false := by simp [ht.store sp]
  obtain ⟨q, hq⟩ := ((t.mem.store sp).write o bs).heal_clean (fun u => bs.length == sp.unit && u == o / sp.unit)
    (by simp [Store.write, ht.store sp])
  unfold State.writeUnit
  rw [e]
  simp only [hc, Bool.false_eq_true, if_false]
  cases sp
  · exact ⟨(t.modStack .near (t.place .near o).1 fun x => (x.accessed o).count fun c =>
      { c with writeBursts := bump c.writeBursts 1, merges := bump c.merges (bit (!(bs.length == Space.near.unit))) }).memStacks, q,
      by rw [hq]; rfl⟩
  · exact ⟨(t.modStack .dep (t.place .dep o).1 fun x => (x.accessed o).count fun c =>
      { c with writeBursts := bump c.writeBursts 1, merges := bump c.merges (bit (!(bs.length == Space.dep.unit))) }).memStacks, q,
      by rw [hq]; rfl⟩
  · exact ⟨t.memStacks, q, by rw [hq]; rfl⟩

/-- A write in one unit keeps memory in canonical form. -/
theorem State.writeUnit_mem_wf (s : State) (r : Reader) (sp : Space) (o : Nat) (bs : List Byte) (h : s.mem.wf = true) :
    (s.writeUnit r sp o bs).mem.wf = true := by
  obtain ⟨l, hl⟩ := s.crossForWrite_frame r sp o bs.length
  suffices ∀ t : State, t.mem.wf = true → s.crossForWrite r sp o bs.length = t → (s.writeUnit r sp o bs).mem.wf = true from
    this { s with spine := l } h hl
  intro t ht e
  have hlog (u : State) (x : Record) (hu : u.mem = t.mem) : (u.log x).mem.wf = true := by
    obtain ⟨g, n, c, p, l, o, e⟩ := u.record_frame x
    rw [State.log, e]
    simpa [hu] using ht
  have hset (u : State) (p : Nat → Bool) (hu : u.mem = t.mem) : (u.setStore sp (((t.mem.store sp).write o bs).heal p)).mem.wf = true := by
    refine Memory.setStore_wf _ _ _ (by rw [hu]; exact ht) ?_
    rw [Store.heal_wf]
    exact Store.write_wf _ _ _ (Memory.store_wf _ _ ht)
  unfold State.writeUnit
  rw [e]
  cases sp <;> dsimp only <;> split
  · exact hlog _ _ rfl
  · exact hset _ _ rfl
  · exact hlog _ _ rfl
  · exact hset _ _ rfl
  · exact hlog _ _ rfl
  · exact hset _ _ rfl

/-- R381: so does a write of any bytes. -/
theorem State.writeMem_mem_wf (s : State) (r : Reader) (sp : Space) (o : Nat) (bs : List Byte) (h : s.mem.wf = true) :
    (s.writeMem r sp o bs).mem.wf = true := by
  unfold State.writeMem
  generalize cutUnits sp.unit (bs.length + 1) o bs = l
  induction l generalizing s with
  | nil => exact h
  | cons p l ih => exact ih _ (s.writeUnit_mem_wf r sp p.1 p.2 h)

/-- The pieces of a cut write, laid one after another, are the write. -/
theorem cutUnits_write (unit : Nat) (hu : 0 < unit) (fuel : Nat) (m : Store) (o : Nat) (bs : List Byte) (hf : bs.length < fuel) (x : Nat) :
    ((cutUnits unit fuel o bs).foldl (fun m p => m.write p.1 p.2) m).byteAt x
      = if o ≤ x ∧ x < o + bs.length then bs.getD (x - o) 0#8 else m.byteAt x := by
  induction fuel generalizing m o bs with
  | zero => omega
  | succ fuel ih =>
    unfold cutUnits
    by_cases hb : bs = []
    · subst hb
      have : ¬ (o ≤ x ∧ x < o + ([] : List Byte).length) := by simp
      rw [if_neg this]
      rfl
    · have hn : 0 < unit - o % unit := by have := Nat.mod_lt o hu; omega
      have hl : 0 < bs.length := List.length_pos_of_ne_nil hb
      rw [if_neg (by simpa using hb)]
      simp only [List.foldl_cons]
      rw [ih _ _ _ (by simp only [List.length_drop]; omega), Store.byteAt_write]
      simp only [List.length_drop, List.length_take]
      generalize unit - o % unit = n at hn
      by_cases h1 : o + n ≤ x ∧ x < o + n + (bs.length - n)
      · rw [if_pos h1, if_pos (by omega)]
        simp only [List.getD_eq_getElem?_getD, List.getElem?_drop]
        congr 2; omega
      · rw [if_neg h1]
        by_cases h2 : o ≤ x ∧ x < o + min n bs.length
        · rw [if_pos h2, if_pos (by omega)]
          simp only [List.getD_eq_getElem?_getD]
          rw [List.getElem?_take_of_lt (by omega)]
        · rw [if_neg h2, if_neg (by omega)]

/-- R381: a write of bytes to clean memory leaves them there, and every other byte alone; otherwise it only counts. -/
theorem State.writeMem_clean (s : State) (r : Reader) (sp : Space) (o : Nat) (bs : List Byte) (h : Clean s) :
    ∃ m l st, s.writeMem r sp o bs = { s with memStacks := m, spine := l, mem := s.mem.setStore sp st } ∧ st.poison = []
      ∧ ∀ x, st.byteAt x = if o ≤ x ∧ x < o + bs.length then bs.getD (x - o) 0#8 else (s.mem.store sp).byteAt x := by
  have hu : 0 < sp.unit := by cases sp <;> decide
  have fold : ∀ (ps : List (Nat × List Byte)) (s : State), Clean s →
      ∃ m l q, ps.foldl (fun s p => s.writeUnit r sp p.1 p.2) s
        = { s with
            memStacks := m
            spine := l
            mem := s.mem.setStore sp { ps.foldl (fun m p => m.write p.1 p.2) (s.mem.store sp) with planted := q } } := by
    intro ps
    induction ps with
    | nil => intro s _; exact ⟨s.memStacks, s.spine, (s.mem.store sp).planted, by cases sp <;> rfl⟩
    | cons p ps ih =>
      intro s hs
      obtain ⟨m, l, q, hm⟩ := s.writeUnit_clean r sp p.1 p.2 hs
      have hc : Clean { s with memStacks := m, spine := l, mem := s.mem.setStore sp { (s.mem.store sp).write p.1 p.2 with planted := q } } := by
        obtain ⟨h1, h2, h3, h4⟩ := hs
        cases sp <;> exact ⟨by exact h1, by exact h2, by exact h3, h4⟩
      obtain ⟨m', l', q', hm'⟩ := ih _ hc
      have planted (ps : List (Nat × List Byte)) (a : Store) (u v : List Nat) :
          ({ ps.foldl (fun m p => m.write p.1 p.2) { a with planted := u } with planted := v } : Store)
            = { ps.foldl (fun m p => m.write p.1 p.2) a with planted := v } := by
        induction ps generalizing a with
        | nil => rfl
        | cons p ps ih => exact ih (a.write p.1 p.2)
      refine ⟨m', l', q', ?_⟩
      rw [List.foldl_cons, hm, hm', List.foldl_cons]
      simp only [Memory.store_setStore]
      rw [planted]
      cases sp <;> rfl
  have hpois : ∀ (ps : List (Nat × List Byte)) (m : Store), (ps.foldl (fun m p => m.write p.1 p.2) m).poison = m.poison := by
    intro ps
    induction ps with
    | nil => intro m; rfl
    | cons p ps ih => intro m; rw [List.foldl_cons, ih]; rfl
  obtain ⟨m, l, q, hm⟩ := fold (cutUnits sp.unit (bs.length + 1) o bs) s h
  exact ⟨m, l, _, hm, by rw [← h.store sp]; exact hpois _ _, fun x => cutUnits_write sp.unit hu _ _ _ _ (by omega) x⟩

/-! ## Accesses to virtual memory that land in one memory (R348) -/

/-- A read of clean memory that lands answers its bytes, and only counts. -/
theorem State.vread_lands (s : State) (r : Reader) (o : Origin) (acc : Acc) (va n : Nat) (sp : Space) (a : Nat)
    (hl : Lands s o acc va n sp a) (h : Clean s) :
    ∃ m l, s.vread r o acc va n = (.bytes ((s.mem.store sp).read a n), { s with memStacks := m, spine := l }) := by
  obtain ⟨m, l, hm⟩ := s.readMem_clean r sp a n h
  refine ⟨m, l, ?_⟩
  simp only [State.vread, show s.translateSpan o acc va n = _ from hl, State.readPieces, hm, List.append_nil]

/-- A write of clean memory that lands stores its bytes, alone. -/
theorem State.storeAt_lands (s : State) (r : Reader) (va : Nat) (bs : List Byte) (sp : Space) (a : Nat)
    (hl : Lands s .device .write va bs.length sp a) (h : Clean s) :
    ∃ m l st, s.storeAt r va bs = { s with memStacks := m, spine := l, mem := s.mem.setStore sp st } ∧ st.poison = []
      ∧ Stored s (s.storeAt r va bs) sp a bs := by
  obtain ⟨m, l, st, hm, hp, hb⟩ := s.writeMem_clean r sp a bs h
  have e : s.storeAt r va bs = s.writeMem r sp a bs := by
    simp only [State.storeAt, State.vwrite, show s.translateSpan .device .write va bs.length = _ from hl, awayOf,
      State.writePieces, List.take_length]
    rfl
  refine ⟨m, l, st, by rw [e, hm], hp, ?_⟩
  rw [e, hm]
  intro sp' x
  by_cases hs : sp' = sp
  · subst hs
    simp only [State.byteAt, Memory.store_setStore, hb, true_and]
  · simp only [State.byteAt, Memory.store_setStore_ne _ _ _ _ hs, hs, false_and, if_false]

end Sys2Proof.Machine
end

