-- ==== Sys2Proof/Laws/Rings.lean ====
section
/-! SUPPORT. Rings: what a command does whose ring firmware takes, said once for every command of R112. -/

namespace Sys2Proof.Machine

/-- R104: an answer leaves the state as `Replied` says. -/
theorem replied_respond (s u : State) (k : Nat) (c : Carrel) (a : Answer) :
    Replied s u (s.latched (s.fixed (u.respond k c.reqSeq c.opcode c.tag a))) k c a.status a.detail a.ticket a.payload := by
  obtain ⟨p, l, o, h⟩ := u.respond_frame k c.reqSeq c.opcode c.tag a
  rw [h]
  refine ⟨by simp [State.latched, State.fixed], ?_, by simp⟩
  rfl

/-- R105, R112: the gate lets the ring of an attached session through. -/
theorem State.gate_rung (s : State) (k op : Nat) (r : OpRow) (hr : opRow? op = some r) (h0 : r.only0 = true → k = 0) (h1 : op ≠ 1)
    (hs : s.fw.start = .ready) (ho : ∀ c, s.carrel? k = some c → k = 0 ∨ c.isOpen = true) (hc : (s.carrel? k).isSome = true)
    (ha : r.pre = true ∧ (k = 0 ∨ s.session.state ≠ .orphaned) ∨ s.session.state = .attached) : s.gate k op = stOk := by
  obtain ⟨c, hc⟩ := Option.isSome_iff_exists.1 hc
  have ho := ho c hc
  have hg : (decide (0 < k) && !c.isOpen) = false := by
    rcases ho with rfl | ho
    · rfl
    · simp [ho]
  have hq : (decide (0 < k) && s.session.state == .orphaned) = false := by
    rcases ha with ⟨-, rfl | h⟩ | h
    · rfl
    · rw [Bool.and_eq_false_iff]; right; simpa using h
    · rw [h]; simp
  have h2 : (r.only0 && decide (0 < k)) = false := by
    by_cases h : r.only0 = true
    · simp [h0 h]
    · simp [h]
  have h3 : (op == 1) = false := by simpa using h1
  unfold State.gate
  simp only [hs, hr, hc]
  rw [if_neg (by decide), if_neg (by decide), if_neg (by decide), if_neg (by decide), hg, hq, h2, h3]
  simp only [Bool.false_eq_true, if_false]
  rcases ha with ⟨h, -⟩ | h
  · simp [h]
  · simp [h]

/-- R104, R105, R112: a ring that firmware takes runs its command's body once, on its payload and on the state whose ring bit is clear,
and answers what the body answers. -/
theorem takeRing_rung (s : State) (k op len : Nat) (c : Carrel) (r : OpRow) (body : List Byte → State → Answer × State)
    (h : RungFirst s k op len c) (hr : opRow? op = some r) (hl : r.len = len) (h0 : r.only0 = true → k = 0) (h1 : op ≠ 1)
    (ha : r.pre = true ∧ (k = 0 ∨ s.session.state ≠ .orphaned) ∨ s.session.state = .attached)
    (hu : s.uadinDiffers = false ∨ r.pre = true ∨ op = 0x11) :
    takeRing k op body s = .next ((body (c.payload len) (s.clearPend k)).2.respond k c.reqSeq op c.tag
      (body (c.payload len) (s.clearPend k)).1) := by
  obtain ⟨hc, hp, hs, ha', hm, ho, hop, hlen, hq⟩ := h
  have ht : s.takesRings = true := by
    simp only [State.takesRings, hs]
    simpa using ha'
  have hne : (c.reqSeq == c.rspSeq) = false := by
    rw [hq, beq_eq_false_iff_ne]
    intro e
    have := congrArg BitVec.toNat e
    simp only [BitVec.toNat_add, BitVec.toNat_ofNat] at this
    omega
  have hun : (s.clearPend k).unanswered k = false := by
    simp only [State.unanswered, State.clearPend_fw, hs]
    rw [Bool.and_eq_false_iff]; right; rfl
  have hg : (s.clearPend k).gate k op = stOk := by
    refine State.gate_rung _ k op r hr h0 h1 hs ?_ ?_ ha
    · intro d hd'
      have : d = c := by
        have h2 : s.carrel? k = some d := hd'
        rw [hc] at h2; exact (Option.some.inj h2).symm
      rw [this]; exact ho
    · show (s.carrel? k).isSome = true
      rw [hc]; rfl
  have hu' : ((s.clearPend k).uadinDiffers && !r.pre && op != 0x11) = false := by
    have e : (s.clearPend k).uadinDiffers = s.uadinDiffers := rfl
    rcases hu with hu | hu | hu
    · simp [e, hu]
    · simp [hu]
    · simp [hu]
  unfold takeRing takeRingLater
  simp only [hc, hp, ht, hm, hop, bne_self_eq_false, Bool.not_true, Bool.or_self, Bool.false_eq_true, if_false, hne, hun, hr,
    hlen, hl, hg, hu']
  rw [← hq]
  simp [Carrel.payload]

/-- The same, with what follows the command: its answer is as `Replied` says. -/
theorem takeRing_replied (s : State) (k op len : Nat) (c : Carrel) (r : OpRow) (body : List Byte → State → Answer × State)
    (h : RungFirst s k op len c) (hr : opRow? op = some r) (hl : r.len = len) (h0 : r.only0 = true → k = 0) (h1 : op ≠ 1)
    (ha : r.pre = true ∧ (k = 0 ∨ s.session.state ≠ .orphaned) ∨ s.session.state = .attached)
    (hu : s.uadinDiffers = false ∨ r.pre = true ∨ op = 0x11) (a : Answer) (u : State)
    (hb : body (c.payload len) (s.clearPend k) = (a, u)) :
    ∃ t, s.after (takeRing k op body s) = .next t ∧ Replied s u t k c a.status a.detail a.ticket a.payload := by
  have e : op = c.opcode := h.2.2.2.2.2.2.1.symm
  refine ⟨s.latched (s.fixed (u.respond k c.reqSeq c.opcode c.tag a)), ?_, replied_respond s u k c a⟩
  rw [takeRing_rung s k op len c r body h hr hl h0 h1 ha hu, hb, e]
  rfl

end Sys2Proof.Machine
end

