-- ==== Sys2Proof/Tests/Slice0.lean ====
section
/-! SUPPORT. The model's own tests: ill-formed commands refused, worked cases of the manual, and for every statement a concrete state
that meets its hypotheses. -/

namespace Sys2Proof.Tests

-- One theorem at a time: the witnesses together would need too many threads at once.
set_option Elab.async false

open Sys2Proof Sys2Proof.Machine

/-! ## WellFormed refuses (one ill-formed term for each check) -/

def e0 : ClusterId := ⟨0, 0⟩
def t0 : ThreadId := ⟨e0, 0⟩
def noFrame : Frame := ⟨0, 0, 0, 0, 0, 0, 0, 0#32, 0#64, 0#32, 0#32, [], 0#32, true⟩
def noReport : StartReport := ⟨0#128, 0#128, 0#64, 0#32, [], [], [], none, none⟩

theorem wellFormed_refuses_units :
    [Instr.vAdd ⟨8, 0⟩, .vAdd ⟨0, 16⟩, .loadDataReturn ⟨⟨0, 0⟩, 16⟩, .cyc t0 32, .map 64, .route 4, .dieSensorRead .c 8 0,
      .dieSensorRead .x 4 0, .dieSensorRead .d 16 0, .idleSend 16, .threadLaunch 1024, .stackSensorRead .near 32 0,
      .stackSensorRead .loc 0 0, .spineFlitReplay 37 0, .spineFlitReplay 0 2, .inputOperation 8, .dmaStart 0 0 4, .dmaStart 1024 0 0,
      .accumulateBurst 0 0 4096, .skipStepDown 8, .scrub .near 0 8 [], .scrub .near 0 0 [(18, 0)], .scrub .near 0 0 [(0, 32)],
      .scrub .near 0 0 [(0, 0), (0, 0)], .hotStackWindow .loc [] 0, .sramScrub (.word ⟨0, 16⟩ 0) false 1, .sramScrub (.flow 262144) true 1,
      .sramScrub (.translation .x 4) false 1, .sramScrub (.entry (.conventional 8)) false 1, .sramScrub (.slot 8 0 0 0 0) false 1,
      .sramScrub (.accumulator e0) false 3].all (fun c => !c.wellFormed) = true := by decide +kernel

theorem wellFormed_refuses_operands :
    [Instr.resetEnd false 0 6 none false, .resetEnd false 0 5 (some (.x, 4)) false, .linkChange 0 6, .msixUnmask (.vector 256),
      .bar2FaultClear (some (2 ^ 57, true)), .registerWrite 0 ⟨[], plainTlp⟩, .registerWrite (2 ^ 24) ⟨[0#8], plainTlp⟩, .bar0BadAccess 0 0 true,
      .bar0BadAccess (2 ^ 24) 1 true, .bar2Read (2 ^ 36) ⟨1, plainTlp⟩, .bar2Write (2 ^ 36) [0#8] plainTlp, .submit 0 [⟨2 ^ 64, [0#8]⟩],
      .firmwareBringUp { noReport with failedClusters := [(0, 18)] }, .firmwareBringUp { noReport with fatal := some 3 },
      .fabricReadRetry (some []), .bankSwap (.routing 4) 1, .bankSwap (.routing 0) 0, .bankSwap (.update .x 0) 1,
      .scalarInstruction t0 (.alu .add 0 0 32), .wait t0 (.cycles (2 ^ 24 + 1)), .wait t0 (.word 0 32 none),
      .wait t0 (.word 0 0 (some (2 ^ 24 + 1))), .emergencyClear (.thermalDie .c 8) 0,
      .domainGate (.update .x 0), .faultReport (.dma 0 4), .faultReport (.port 16 8), .linkInfo 0 { noFrame with type := 16 },
      .linkInfo 0 { noFrame with payload := zeros 4 }, .configurationWrite (.maxPayload 8)].all (fun c => !c.wellFormed) = true := by
  decide +kernel

/-! ## States to test on -/

/-- A device in service: started, attached, mastering allowed. -/
def up : State := { State.reset with
  pins := ⟨true, true, false, false, false, false, false⟩
  link := ⟨16, 5, false⟩
  cfg := { ConfigSpace.reset with memorySpace := true, busMaster := true, msixEnable := true }
  session := ⟨.attached, none, 7#64, 2000, 0, 0#32, 3#32⟩
  fw := { Firmware.reset with start := .ready, running := some ⟨1#32, 0#32, 3#32, 0#384⟩, timeRuns := true }
  tr := { State.reset.tr with ready := true }
  ledger := ⟨[], 1, 1, []⟩
  catalogue := ⟨3, 1#32, []⟩ }

/-- The same, with no session. -/
def idleUp : State := { up with session := { up.session with state := .detached, id := 0#64 } }

/-- A carrel whose host has written request 1: opcode op, payload pl. -/
def request (op : Nat) (pl : List Byte) (c : Carrel) : Carrel :=
  { c with isOpen := true, reqSeq := 1#32, request := cellsFrom 0x40 (leBytes 2 op ++ leBytes 2 pl.length ++ leBytes 4 5 ++ zeros 8 ++ pl) }

/-- That request in carrel k of s, its ring pending. -/
def rungIn (s : State) (k op : Nat) (pl : List Byte) : State :=
  { s with carrels := s.carrels.modify k (request op pl), bar0 := { s.bar0 with pend := 1#64 <<< k } }

/-- The carrel itself. -/
def rung (op : Nat) (pl : List Byte) : Carrel := request op pl (Carrel.reset true)

/-- A leaf of level 0: 64 KiB of the near tier from 0, every access granted. -/
def leaf0 : Leaf := ⟨0, 0, 0x7F#64⟩

def mapped : State := { up with tr := { up.tr with leaves := [leaf0] }, bar0 := { up.bar0 with bar2Lo := 1#32 } }

def L (off : Nat) : Nat := localBase + off
def reg (l : List (Nat × Nat)) : Vector Word64 32 := l.foldl (fun v p => v.setIfInBounds p.1 (BitVec.ofNat 64 p.2)) (Vector.replicate 32 0#64)

/-- Thread 0 of cluster 0 runs at its local window, with these registers. -/
def thr (l : List (Nat × Nat)) : Thread :=
  { Thread.reset with pc := BitVec.ofNat 64 localBase, state := .running, statusVa := L 0x200, regs := reg l }

def running (l : List (Nat × Nat)) : State := up.modThread t0 fun _ => thr l

def waiting (w : ThreadWait) : State := up.modThread t0 fun _ => { thr [] with state := .waiting, wait := w }

/-- A unit that has been mapped byte by byte in the local window can be reached. -/
theorem reachable_local (s : State) (acc : Acc) (r : Nat × Nat)
    (h : ∀ i, i < r.2 - r.1 → s.translateSpan .device acc (r.1 + i) 1 = .ok [(.mem .loc (r.1 + i - localBase), 1)]) :
    Reachable s acc r := by
  intro v h1 h2
  refine ⟨.loc, v - localBase, ?_⟩
  have := h (v - r.1) (by omega)
  rwa [Nat.add_sub_cancel' h1] at this

theorem clean_up : Clean up := by unfold Clean; decide +kernel

/-! ## Every statement's hypotheses can be met -/

theorem witness_StepRunsTheFrontCommand : { up with pending := [.l1Exit, .vinLoss] }.pending = Instr.l1Exit :: [.vinLoss] := rfl

theorem witness_QueueAndFusesAreLeftAlone : State.reset.pending = [] ∧ ∃ t, exec .l1Exit up = .next t := ⟨rfl, _, rfl⟩

theorem witness_SealsLastUntilAReset : let s := { up with pending := [.l1Exit], bar0 := { up.bar0 with lock := 5#5 }, fw := { up.fw with debugEver := true, injectEver := true } }
    s.pending = .l1Exit :: [] ∧ mayReset .l1Exit = false ∧ (∃ t, step s = .next t) ∧ s.bar0.lock.getLsbD 2 = true
      ∧ s.fw.debugEver = true ∧ s.fw.injectEver = true := ⟨rfl, rfl, ⟨_, rfl⟩, rfl, rfl, rfl⟩

/-- A step that stores a byte, of a state in debug mode. -/
def storing : State := { mapped with pending := [.bar2Write 0 [1#8] plainTlp], fw := { up.fw with debugOn := true, debugEver := true } }

theorem witness_EveryStepKeepsMemoryCanonical : storing.mem.wf = true ∧ ∃ t, step storing = .next t := ⟨rfl, ⟨_, rfl⟩⟩

theorem witness_EverFlagsCoverWhatIsInForce : EverFlagsCover storing ∧ ∃ t, step storing = .next t :=
  ⟨⟨fun _ => rfl, fun h => absurd rfl h⟩, ⟨_, rfl⟩⟩

theorem witness_ResetsClearAndStartTheDevice :
    resetsNow { up with pins := { up.pins with powered := false } } (.powerOn true 0 true) = true
      ∧ resetsNow { up with pins := { up.pins with pgood := false } } (.powerOn true 0 false) = true
      ∧ resetsNow up .vinLoss = true ∧ resetsNow up (.perst 10000) = true ∧ resetsNow up (.coldReset 10000) = true
      ∧ resetsNow up (.deviceReset 0x15153#32) = true
      ∧ State.reset.pins.pgood = true ∧ State.reset.pins.tripLow = false ∧ State.reset.pins.inReset = true := by decide +kernel

theorem witness_LinkStateFollowsItsEvents :
    up.pins.pgood = true ∧ up.pins.inReset = false
      ∧ (let s := { up with cfg := { up.cfg with aspmL1 := true } }; s.cfg.aspmL1 = true ∧ s.link.lanes ≠ 0)
      ∧ { up with pins := { up.pins with pgood := false } }.pins.pgood = false := by decide +kernel

theorem witness_RegistersTakeWhatIsWritten :
    up.registersServed = true ∧ up.session.state = .attached ∧ idleUp.registersServed = true ∧ idleUp.session.state ≠ .attached := by
  decide +kernel

theorem witness_CplHeadReleasesHeldCompletions : up.registersServed = true ∧ up.carrel? 63 = some (Carrel.reset false) := by decide +kernel

theorem witness_HostWritesReachBar0 :
    up.registersServed = true ∧ up.carrel? 63 = some (Carrel.reset false) ∧ (Carrel.reset false).reqSeq = (Carrel.reset false).rspSeq
      ∧ 0x40 ≤ 0x3FF ∧ 0x3FF + [1#8].length ≤ 0x400 ∧ (rungIn up 0 0x61 []).registersServed = true
      ∧ (rungIn up 0 0x61 []).carrel? 0 = some (rung 0x61 []) ∧ (rung 0x61 []).reqSeq ≠ (rung 0x61 []).rspSeq := by decide +kernel

theorem witness_ArrivalsAndAccessesAreChecked :
    up.registersServed = true ∧ badAccesses 0x200000 1 ≠ 0 ∧ badAccesses 0x3FFFFC 4 ≠ 0
      ∧ (∀ x ∈ [LinkError.badTlp], x ∈ { up.cfg with aerCorrected := [.badTlp] }.aerCorrected)
      ∧ { up with cfg := { up.cfg with ecrcCheck := true } }.registersServed = true := by decide +kernel

theorem witness_ConfigurationTakesEffect :
    let s := { up with bar0 := { up.bar0 with pba := 1#256 <<< 255 } }
    s.linkUp = true ∧ NothingHeld s = true ∧ s.registersServed = true ∧ s.bar0.msix[255]? = some ⟨0#64, 0#32, true⟩ ∧ s.bar0.pba.getLsbD 255 = true
      ∧ s.canMaster = true ∧ s.cfg.msixEnable = true ∧ s.cfg.functionMask = false := by decide +kernel

theorem witness_Bar2AccessesMeetTheMemory :
    mapped.registersServed = true ∧ mapped.bar2Open = true ∧ Clean mapped ∧ Lands mapped .host .read (mapped.bar2Address 65535) 1 .near 65535
      ∧ Lands mapped .host .write (mapped.bar2Address 65528) [1#8, 2, 3, 4, 5, 6, 7, 8].length .near 65528
      ∧ mapped.translateSpan .host .read (mapped.bar2Address 65536) 4 = .error (1, 65536) ∧ mapped.bar0.bar2Fault = false := by
  unfold Clean Lands; decide +kernel

/-- An outstanding read of host memory. -/
def reading (o : Requester) (s : State) : State := { s with hostReads := [⟨4, 0, 0x1000, 8, o⟩] }

def job : DmaJob := ⟨9, 0, 0x10000, 0, 64, 0, 0, 0, none, [], 0, some 4, false, none, false, none⟩

theorem witness_HostCompletionsReachTheirReaders :
    up.linkUp = true ∧ (let s := reading (.thread t0) (waiting (.remote 31 8 4));
      (s.hostReads.find? fun x => x.id == 4) = some ⟨4, 0, 0x1000, 8, .thread t0⟩ ∧ NothingHeld s = true
        ∧ s.thread? t0 = some { thr [] with state := .waiting, wait := .remote 31 8 4 })
      ∧ let s := reading (.dma 0 3) { up with dma := up.dma.modify 3 fun _ => some job };
        (s.hostReads.find? fun x => x.id == 4) = some ⟨4, 0, 0x1000, 8, .dma 0 3⟩ ∧ NothingHeld s = true
          ∧ s.job? 0 3 = some job ∧ job.waiting = some 4 := by decide +kernel

/-- A thread whose turn it is fetches its instruction. -/
theorem fetched (s : State) (t : ThreadId) (th : Thread)
    (h : s.thread? t = some th ∧ th.state = .running ∧ (s.cluster? t.at_).bind Cluster.turn = some t.thread ∧ th.pc.toNat % 4 = 0
      ∧ (match ((s.issuing t).vread (threadReader t) .device .fetch th.pc.toNat 4).1 with | .bytes _ => true | _ => false) = true) :
    ∃ s', Fetched s t th s' := by
  obtain ⟨h1, h2, h3, h4, h5⟩ := h
  rcases hv : (s.issuing t).vread (threadReader t) .device .fetch th.pc.toNat 4 with ⟨g, s'⟩
  rw [hv] at h5
  match g, h5 with
  | .bytes b, _ => exact ⟨s', h1, h2, h3, h4, b, hv⟩

theorem witness_ScalarInstructionsChangeOnlyTheirThread : (∃ s', Fetched (running []) t0 (thr []) s')
    ∧ (thr []).awaits [31, 0, 31] = none := ⟨fetched _ _ _ (by decide +kernel), rfl⟩

theorem witness_LoadsReturnMemoryZeroExtended : (∃ s', Fetched (running [(2, L 0x103FFF8)]) t0 (thr [(2, L 0x103FFF8)]) s')
    ∧ (thr [(2, L 0x103FFF8)]).awaits [1, 2] = none ∧ ((thr [(2, L 0x103FFF8)]).reg 2).toNat % 8 = 0
    ∧ Lands (running [(2, L 0x103FFF8)]) .device .read ((thr [(2, L 0x103FFF8)]).reg 2).toNat 8 .loc 0x103FFF8
    ∧ (let s := waiting (.load 31 8 (BitVec.ofNat 64 (L 8)));
      s.thread? t0 = some { thr [] with state := .waiting, wait := .load 31 8 (BitVec.ofNat 64 (L 8)) }
        ∧ Clean s ∧ Lands s .device .read (BitVec.ofNat 64 (L 8)).toNat 8 .loc 8) := by
  refine ⟨fetched _ _ _ (by decide +kernel), ?_⟩; unfold Lands Clean; decide +kernel

theorem witness_StoresWriteTheirBytesOnly : let l := [(2, L 0x40)]
    (∃ s', Fetched (running l) t0 (thr l) s') ∧ Clean (running l) ∧ (thr l).awaits [1, 2] = none ∧ ((thr l).reg 2).toNat % 8 = 0
      ∧ Lands (running l) .device .write ((thr l).reg 2).toNat 8 .loc 0x40 := by
  refine ⟨fetched _ _ _ (by decide +kernel), ?_⟩; unfold Lands Clean; decide +kernel

theorem witness_AtomicsReturnTheOldValue : let l := [(2, L 0x40), (3, 5), (4, 6)]
    (∃ s', Fetched (running l) t0 (thr l) s') ∧ Clean (running l) ∧ (thr l).awaits [1, 2, 3, 4] = none ∧ ((thr l).reg 2).toNat % 8 = 0
      ∧ Lands (running l) .device .atomic ((thr l).reg 2).toNat 8 .loc 0x40 := by
  refine ⟨fetched _ _ _ (by decide +kernel), ?_⟩; unfold Lands Clean; decide +kernel

/-- Cluster 0's engines with n descriptors queued. -/
def fullQueues (s : State) (n : Nat) : State :=
  (s.modCluster e0 fun c => { c with matrix := { c.matrix with queue := List.replicate n ⟨0, .queue 0, false, zeros 192, []⟩ },
                                     vector := { c.vector with queue := List.replicate n ⟨0, .queue 0, false, zeros 192, []⟩ } })

set_option maxRecDepth 20000 in
theorem witness_IssuesReachTheirEngine : let l := [(2, L 0x40)]
    (∃ s', Fetched (running l) t0 (thr l) s' ∧ ∃ s'', s'.vread (threadReader t0) .device .read ((thr l).reg 2).toNat 192 = (.bytes (zeros 192), s''))
      ∧ (thr l).awaits [2] = none ∧ ((thr l).reg 2).toNat % 64 = 0 ∧ (thr l).awaits (scalarSources (zeros 192)) = none
      ∧ (running l).engineFull (zeros 192) (.matrix e0) = false ∧ (running l).engineFull (zeros 192) (.router 0) = false
      ∧ (fullQueues (running l) 32).engineFull (zeros 192) (.vector e0) = true
      ∧ (fullQueues (running l) 32).engineFull (zeros 192) (.matrix e0) = true
      ∧ ∃ s', let th := { thr l with state := .waiting, wait := .issue 0 2 }; let s := up.modThread t0 fun _ => th;
        s.thread? t0 = some th ∧ s.engineFull (zeros 192) (s.issueTarget t0 0 (zeros 192)) = false
          ∧ s.vread (threadReader t0) .device .read (th.reg 2).toNat 192 = (.bytes (zeros 192), s') := by
  refine ⟨⟨_, ⟨by decide +kernel, rfl, by decide +kernel, by decide +kernel, zeros 4, rfl⟩, _, rfl⟩, ?_⟩
  refine ⟨rfl, by decide +kernel, by decide +kernel, by decide +kernel, by decide +kernel, by decide +kernel, by decide +kernel,
    _, by decide +kernel, by decide +kernel, rfl⟩

theorem witness_FencesWaitForEarlierWork : (∃ s', Fetched (running []) t0 (thr []) s') ∧ (thr []).issued = [] ∧ (thr []).writes = []
    ∧ (∃ s', Fetched (up.modThread t0 fun _ => { thr [] with issued := [3] }) t0 { thr [] with issued := [3] } s')
    ∧ (thr []).writes = []
    ∧ (waiting (.fence 3 [2])).thread? t0 = some { thr [] with state := .waiting, wait := .fence 3 [2] }
    ∧ (∀ u ∈ [2], u ∉ (thr []).issued) := by
  refine ⟨fetched _ _ _ (by decide +kernel), rfl, rfl, fetched _ _ _ (by decide +kernel), rfl, ?_⟩; decide +kernel

theorem witness_WaitSleepsUntilItsWake : let l := [(2, L 0x40)]
    (∃ s', Fetched (running l) t0 (thr l) s') ∧ Clean (running l) ∧ (thr l).awaits [2, 3] = none ∧ ((thr l).reg 2).toNat % 8 = 0
      ∧ Lands (running l) .device .read ((thr l).reg 2).toNat 8 .loc 0x40
      ∧ (BitVec.ofNat 64 (leNat ((List.range 8).map fun i => (running l).byteAt .loc (0x40 + i))) = (thr l).reg 3)
      ∧ (BitVec.ofNat 64 (leNat ((List.range 8).map fun i => (running l).byteAt .loc (0x40 + i))) ≠ (thr l).reg 2)
      ∧ (waiting (.cycles 4)).thread? t0 = some { thr [] with state := .waiting, wait := .cycles 4 }
      ∧ (waiting (.word 8 0 (some 4) none)).thread? t0 = some { thr [] with state := .waiting, wait := .word 8 0 (some 4) none } := by
  refine ⟨fetched _ _ _ (by decide +kernel), ?_⟩; unfold Lands Clean; decide +kernel

theorem witness_ThreadsEndWithTheirRecord : let l := [(2, L 0x41)]
    (∃ s', Fetched (running l) t0 (thr l) s')
      ∧ (∃ s', Fetched (up.modThread t0 fun _ => { thr l with writes := [5] }) t0 { thr l with writes := [5] } s')
      ∧ Clean (running l) ∧ (thr l).writes = [] ∧ (thr l).awaits [1, 3, 2] = none ∧ (thr l).statusVa ≠ 0
      ∧ Lands (running l) .device .write (thr l).statusVa 32 .loc 0x200 ∧ ((thr l).reg 2).toNat % 2 = 1 := by
  refine ⟨fetched _ _ _ (by decide +kernel), fetched _ _ _ (by decide +kernel), ?_⟩; unfold Lands Clean; decide +kernel

/-- A descriptor or record of 192 bytes from its words. -/
def words (l : List (Nat × Nat)) (n : Nat := 48) : List Byte := (List.range n).flatMap fun i => leBytes 4 (keyed l (4 * i))

/-- A queue 5 with one waiting item. -/
def offering (s : State) (work : ItemWork) : State := { s with queues := [⟨5, 0, false, [⟨2, 0, 1#32, 0#32, 0x42, work, .waiting⟩]⟩] }

def launchDesc : List Byte := words [(0, 5 + 16 * 16), (8, 0x400), (0xC, 0x1FF0000), (0x90, 0)]

theorem witness_LaunchStartsAThread :
    let s := offering up (.desc launchDesc)
    s.offered 5 = some (⟨5, 0, false, [⟨2, 0, 1#32, 0#32, 0x42, .desc launchDesc, .waiting⟩]⟩, ⟨2, 0, 1#32, 0#32, 0x42, .desc launchDesc, .waiting⟩)
      ∧ descKind launchDesc = 5 ∧ launchBad s.fuses.part launchDesc = none ∧ descCluster launchDesc = e0
      ∧ s.cluster? e0 = some Cluster.reset ∧ launchThread Cluster.reset (field (get32 launchDesc 0) 8 4) = some 0 := by decide +kernel

theorem witness_BellowsActsOnEachSample :
    up.pins.pgood = true ∧ up.pins.inReset = false ∧ up.pins.tripLow = false ∧ up.die? .c 3 = some (DiePower.reset .c 3)
      ∧ (let s := { up with pins := { up.pins with tripLow := true } }; s.pins.pgood = true ∧ s.pins.tripLow = true)
      ∧ (let s := { up with pins := { up.pins with inReset := true } }; s.pins.pgood = true ∧ s.pins.inReset = true) := by decide +kernel

theorem witness_SensorReadingsDeclareAndTrip :
    up.pins.pgood = true ∧ up.pins.inReset = false ∧ up.pins.tripLow = false ∧ up.fuses.part.hasDie .c 3 = true
      ∧ up.die? .c 3 = some (DiePower.reset .c 3) ∧ up.stack? .near 11 = some (Stack.reset .near 11) := by decide +kernel

theorem witness_EmergenciesClearAndDomainsWake :
    (let s := { up with power := { up.power with declared := [.power, .inputVoltage] } };
        Cause.inputVoltage ∈ s.power.declared ∧ s.released .inputVoltage = true ∧ s.released .power = true ∧ s.pins.tripLow = false)
      ∧ up.die? .c 3 = some (DiePower.reset .c 3)
      ∧ ¬ 97 * up.fuses.part.pmax < 100 * up.power.avg1ms ∧ up.power.declared.any (forces up.fuses.part 3) = false
      ∧ (DiePower.reset .c 3).tempC < 105
      ∧ up.fwRuns = true ∧ up.gateable (.conventional 3) = true ∧ Domain.conventional 3 ∉ up.power.gated
      ∧ (let s := { up with power := { up.power with gated := [.cluster e0] } };
        Domain.cluster e0 ∈ s.power.gated ∧ s.die? (domainDie (.cluster e0)).1 (domainDie (.cluster e0)).2 = some (DiePower.reset .c 0)) := by
  decide +kernel

theorem witness_PowerLoopMovesTheLevels :
    up.fwRuns = true ∧ up.fw.activation ≠ .handing ∧ up.die? .c 0 = some (DiePower.reset .c 0) ∧ (DiePower.reset .c 0).level ≤ 5
      ∧ (∀ x ∈ up.power.dies, x.kind ≠ .c → x.tempC + 3 ≤ up.power.targetC) ∧ up.power.capW < up.fuses.part.pmax + 1
      ∧ (DiePower.reset .c 0).tempC + 3 ≤ up.power.targetC ∧ (∀ x ∈ up.power.dies, x.kind = .c → (DiePower.reset .c 0).level ≤ x.level)
      ∧ 100 * 0 < 95 * up.power.capW
      ∧ (let s := up.modDie .c 0 fun d => { d with tempC := 91 };
        s.die? .c 0 = some { DiePower.reset .c 0 with tempC := 91 } ∧ 0 ≤ s.power.capW ∧ (s.power.targetC : Int) < 91) := by decide +kernel

theorem witness_SmbusReadsReturnTheirBytes : up.pins.pgood = true := rfl

/-- A stack that has counted n bursts since the last window, after r hot windows in a row. -/
def burdened (n r : Nat) (s : State) : State := s.modStack .near 11 fun x => { x with bursts := n, hotRun := r }

theorem witness_HotStacksAndLinksAreCounted :
    up.fwRuns = true ∧ 11 < up.fuses.part.stacksOf .near
      ∧ (burdened 666688 9999 up).stack? .near 11 = some { Stack.reset .near 11 with bursts := 666688, hotRun := 9999 }
      ∧ hotCount .near ((burdened 666688 9999 up).burstCounts .near) 666688 = true ∧ hotCount .near ((burdened 666687 0 up).burstCounts .near) 666687 = false
      ∧ up.spine[12]? = some ⟨0#64, 0#64, 0#64, 0#64, 0#64, 0, 0⟩ ∧ 12 < up.spine.length ∧ up.catalogue.stateCode ≠ 0
      ∧ (up.fuses.part.linkRows[12]?.any fun row => 2 < row.lanes + up.fuses.part.spareLanes) = true ∧ (12, 1, 2) ∉ up.phys.lanesNow := by
  decide +kernel

/-- Cluster 15 of C-die 3 works a matrix operation whose first groups have been added. -/
def working315 : State := up.modCluster ⟨3, 15⟩ fun c => { c with matrix := { c.matrix with active := some (newMatrixOp ⟨7, .queue 0, false, zeros 192, []⟩) } }

theorem witness_MemoryErrorsAreContained :
    up.stack? .dep 7 = some (Stack.reset .dep 7) ∧ up.fwRuns = true ∧ Clean up ∧ 7 < 8
      ∧ ([(0, 0), (0, 8), (17, 31), (17, 30)].map symbolOf).eraseDups.length ≤ 3 ∧ (∀ b ∈ [(17, 0), (17, 8), (17, 16), (17, 24)], b.1 = 17)
      ∧ ([(0, 0), (0, 8), (0, 16), (1, 0)].map symbolOf).eraseDups.length = 4 ∧ (0, 0).1 ≠ (1, 0).1
      ∧ up.die? .c 3 = some (DiePower.reset .c 3) ∧ (up.cluster? ⟨3, 15⟩).isSome = true ∧ backed 15 0x103FFFF = true
      ∧ working315.fwRuns = true ∧ working315.die? .c 3 = some (DiePower.reset .c 3)
      ∧ (working315.cluster? ⟨3, 15⟩).map (fun c => c.matrix.active.map fun op => op.ended) = some (some none) := by
  unfold Clean; decide +kernel

theorem witness_MessagesFollowTheirSpinePath :
    up.fuses.part.hasDie .d 3 = true ∧ up.fuses.part.hasDie .c 0 = true ∧ up.injections = [] ∧ (DieKind.d, 3) ≠ (DieKind.c, 0)
      ∧ ((up.fuses.part.spinePath (.d, 3) (.c, 0)).map fun h => h.1).Nodup
      ∧ (up.fuses.part.spinePath (.d, 3) (.c, 0)).all (fun h => (up.spine[h.1]?).isSome) = true
      ∧ up.fuses.part.spinePath (.d, 3) (.c, 0) ≠ [] := by decide +kernel

/-! Windway: rank 1 of a row of three, port 0 toward rank 0, port 1 toward rank 2. -/

def row3 : Fabric := ⟨1, 7#32, 2#32, 0#16, 3#16, 1#16, 2#16, 0#16, 0#16, 0#16, 0#16⟩

def upPort : Port := { Port.reset with state := .up, inUse := 15#4 }

def wind (p0 : Port) : State :=
  { up with ww := { up.ww with fabric := row3, ports := p0 :: upPort :: up.ww.ports.drop 2 } }

/-- A frame with its CRC. -/
def sealed (f : Frame) : Frame := { f with crc := f.crcOf }

/-- A numbered frame from rank 0. -/
def frameTo (dst type arg1 : Nat) (pl : List Byte) : Frame :=
  sealed ⟨type, 0, 3, dst, 0, 1, 0, 0#32, 0#64, 9#32, BitVec.ofNat 32 arg1, pl, 0#32, true⟩

theorem witness_PortsTrainAndComeUp :
    (wind { Port.reset with state := .training }).port? 0 = some { Port.reset with state := .training } ∧ 8#4 ≠ 0#4 ∧ Port.reset.inUse = 0#4 ∧ 8#4 ∈ [15#4, 3#4, 12#4, 1#4, 2#4, 4#4, 8#4]
      ∧ (wind { Port.reset with state := .training, inUse := 12#4 }).port? 0 = some { Port.reset with state := .training, inUse := 12#4 }
      ∧ (let f := sealed { noFrame with type := 10, arg0 := 7#64 };
        f.type = 10 ∧ f.intact = true ∧ row3.direction 0 = some 0
          ∧ f.arg0.setWidth 32 = row3.fabricId ∧ field f.arg0.toNat 43 32 = row3.neighbour 0)
      ∧ (wind upPort).port? 0 = some upPort ∧ (wind { Port.reset with state := .miswired }).port? 0 = some { Port.reset with state := .miswired } := by
  decide +kernel

theorem witness_LinksAcknowledgeResendAndForward :
    let x : Port := { upPort with retry := [frameTo 2 1 8 []], resends := [15], txSeq := 1 }
    (wind x).port? 0 = some x ∧ x.state = .up ∧ x.accepts noFrame = false
      ∧ x.accepts (sealed noFrame) = true ∧ (sealed noFrame).type = 0 ∧ x.waiting = []
      ∧ (let f := sealed { noFrame with type := 11 }; f.type = 11 ∧ x.accepts f = true ∧ (∀ n ∈ x.resends, n < 16) ∧ (x.took f).retry ≠ []
        ∧ (∀ n ∈ (x.took f).resends, n < 16) ∧ 16 ∈ { x with resends := [16] }.resends ∧ (wind x).injections = [] ∧ x.reordered = none)
      ∧ (wind upPort).port? 0 = some upPort ∧ upPort.accepts (frameTo 2 1 8 []) = true ∧ row3.turn 2 ≠ none ∧ row3.route 0 2 = some 1
      ∧ row3.reaches 2 = true ∧ row3.reaches 3 = false ∧ row3.turn 3 ≠ none ∧ row3.route 0 3 = some 0 ∧ upPort.accepts (frameTo 3 1 8 []) = true
      ∧ (wind upPort).port? 1 = some upPort ∧ (frameTo 2 1 8 []).hops ≠ 0 := by and_intros <;> decide +kernel

theorem witness_PeerRequestsAreServed :
    let s := { wind upPort with tr := { up.tr with leaves := [leaf0] } }
    s.port? 0 = some upPort ∧ upPort.accepts (frameTo 1 1 8 []) = true ∧ upPort.accepts (frameTo 1 2 8 (zeros 8)) = true
      ∧ upPort.accepts (frameTo 1 3 0 (zeros 8)) = true ∧ s.ww.fabric.turn 1 = none ∧ s.ww.fabric.reaches 1 = true ∧ s.ww.fabric.reaches 0 = true ∧ s.ww.fabric.route s.ww.fabric.rank 0 = some 0
      ∧ Clean s ∧ Lands s .peer .read 0 8 .near 0 ∧ Lands s .peer .write 0 8 .near 0 ∧ Lands s .peer .atomic 0 8 .near 0 := by
  unfold Clean Lands; decide +kernel

theorem witness_ResponsesReachTheirRequesters :
    (let s := { wind upPort with
        ww := { (wind upPort).ww with requests := [⟨9, 0, 0, 0, 1, 8, .thread t0⟩] }
        clusters := (waiting (.remote 31 8 19)).clusters };
      NothingHeld s = true ∧ s.ww.fabric.reaches 1 = true ∧ s.port? 0 = some upPort ∧ upPort.waiting = [] ∧ upPort.accepts (frameTo 1 4 0 (zeros 8)) = true ∧ s.ww.fabric.turn (frameTo 1 4 0 []).dst = none
        ∧ (s.ww.requests.find? fun r => r.tag == (frameTo 1 4 0 []).tag.toNat) = some ⟨9, 0, 0, 0, 1, 8, .thread t0⟩
        ∧ s.thread? t0 = some { thr [] with state := .waiting, wait := .remote 31 8 19 } ∧ field (frameTo 1 4 0 []).arg1.toNat 7 0 = 0)
      ∧ ((wind upPort).ww.requests.find? fun r => r.tag == 9) = none
      ∧ let j : DmaJob := { job with waiting := some 19 };
        let s := { up with ww := { up.ww with requests := [⟨9, 0, 0, 0, 1, 8, .dma 0 3⟩] }, dma := up.dma.modify 3 fun _ => some j };
        (s.ww.requests.find? fun r => r.tag == 9) = some ⟨9, 0, 0, 0, 1, 8, .dma 0 3⟩ ∧ s.job? 0 3 = some j ∧ j.waiting = some (2 * 9 + 1) ∧ NothingHeld s = true := by
  decide +kernel

/-! Rings -/

theorem witness_ReportsSettingsAndOtherRings :
    RungFirst (rungIn idleUp 0 0x15 []) 0 0x15 0 (rung 0x15 []) ∧ (rungIn idleUp 0 0x15 []).fw.running = some ⟨1#32, 0#32, 3#32, 0#384⟩
      ∧ Rung (rungIn up 63 0x61 []) 63 0x61 0 (rung 0x61 [])
      ∧ RungFirst (rungIn up 63 0x17 [0, 3, 15, 0]) 63 0x17 4 (rung 0x17 [0, 3, 15, 0]) ∧ up.session.state ≠ .orphaned
      ∧ timestampBad up.fuses.part 0 3 15 = none
      ∧ Rung (rungIn up 0 0x60 [1, 0, 0]) 0 0x60 3 (rung 0x60 [1, 0, 0]) ∧ 10 * 1 < 4 * up.fuses.part.pmax
      ∧ Rung (rungIn up 0 0x60 [0, 0, 100]) 0 0x60 3 (rung 0x60 [0, 0, 100])
      ∧ Rung (rungIn up 0 0x12 (leBytes 4 200)) 0 0x12 4 (rung 0x12 (leBytes 4 200)) ∧ get32 ((rung 0x12 (leBytes 4 200)).payload 4) 0 = 200
      ∧ Rung (rungIn up 0 0x12 (leBytes 4 60001)) 0 0x12 4 (rung 0x12 (leBytes 4 60001))
      ∧ Rung (rungIn up 1 0x16 (leBytes 8 4096)) 1 0x16 8 (rung 0x16 (leBytes 8 4096)) ∧ get64 ((rung 0x16 (leBytes 8 4096)).payload 8) 0 = 4096
      ∧ Rung (rungIn up 1 0x16 (leBytes 8 8)) 1 0x16 8 (rung 0x16 (leBytes 8 8))
      ∧ (let s := { up with bar0 := { up.bar0 with pend := 1#64 <<< 63 } };
        s.carrel? 63 = some (Carrel.reset false) ∧ s.bar0.pend.getLsbD 63 = true ∧ s.takesRings = true)
      ∧ RungFirst (rungIn up 0 0xFFFF []) 0 (rung 0xFFFF []).opcode (rung 0xFFFF []).payloadLen (rung 0xFFFF []) ∧ opRow? (rung 0xFFFF []).opcode = none
      ∧ RungFirst (rungIn up 1 0x10 []) 1 (rung 0x10 []).opcode (rung 0x10 []).payloadLen (rung 0x10 [])
      ∧ ((opRow? (rung 0x10 []).opcode).any fun r => r.only0) = true := by
  unfold Rung RungFirst; and_intros <;> decide +kernel

def attachPl (id : Nat) (flags : Nat) : List Byte := leBytes 8 id ++ leBytes 4 3 ++ leBytes 4 1 ++ leBytes 4 200 ++ leBytes 4 flags

set_option maxRecDepth 100000 in
theorem witness_SessionsBeginAndEnd :
    (RungFirst (rungIn up 0 0x10 (attachPl 8 0)) 0 0x10 24 (rung 0x10 (attachPl 8 0)) ∧ up.session.state = .attached
        ∧ BitVec.ofNat 64 (get64 ((rung 0x10 (attachPl 8 0)).payload 24) 0) = 8#64 ∧ get32 ((rung 0x10 (attachPl 8 0)).payload 24) 0x10 = 200
        ∧ 8#64 ≠ up.session.id ∧ bitAt (get32 ((rung 0x10 (attachPl 8 0)).payload 24) 0x14) 0 = false)
      ∧ (RungFirst (rungIn idleUp 0 0x10 (attachPl 8 3)) 0 0x10 24 (rung 0x10 (attachPl 8 3)) ∧ idleUp.session.state = .detached)
      ∧ (RungFirst (rungIn up 0 0x10 (attachPl 7 0)) 0 0x10 24 (rung 0x10 (attachPl 7 0)) ∧ 7#64 = up.session.id)
      ∧ (RungFirst (rungIn up 0 0x10 (attachPl 8 3)) 0 0x10 24 (rung 0x10 (attachPl 8 3))
        ∧ bitAt (get32 ((rung 0x10 (attachPl 8 3)).payload 24) 0x14) 0 = true ∧ bitAt (get32 ((rung 0x10 (attachPl 8 3)).payload 24) 0x14) 1 = true)
      ∧ (RungFirst (rungIn up 0 0x11 []) 0 0x11 0 (rung 0x11 []) ∧ ((rungIn up 0 0x11 []).clearPend 0).beginDetach.2.working = false)
      ∧ (let s := rungIn (running []) 0 0x11 [];
        RungFirst s 0 0x11 0 (rung 0x11 []) ∧ (s.clearPend 0).beginDetach.2.working = true)
      ∧ (let s := { up with session := { up.session with detaching := some 0 } };
        s.session.detaching = some 0 ∧ s.working = false ∧ s.carrel? 0 = some (Carrel.reset true)) := by
  unfold RungFirst; and_intros <;> decide +kernel

theorem witness_CarrelsOrphansAndFunctionReset :
    (Rung (rungIn up 0 0x13 [63]) 0 0x13 1 (rung 0x13 [63]) ∧ get8 ((rung 0x13 [63]).payload 1) 0 = 63
        ∧ (rungIn up 0 0x13 [63]).carrel? 63 = some (Carrel.reset false))
      ∧ (let s := rungIn (up.modCarrel 63 fun c => { c with isOpen := true }) 0 0x13 [63];
        Rung s 0 0x13 1 (rung 0x13 [63]) ∧ s.carrel? 63 = some (Carrel.reset true))
      ∧ (let s := rungIn (up.modCarrel 63 fun c => { c with isOpen := true }) 0 0x14 [63];
        Rung s 0 0x14 1 (rung 0x14 [63]) ∧ get8 ((rung 0x14 [63]).payload 1) 0 = 63 ∧ s.carrel? 63 = some (Carrel.reset true)
          ∧ s.carrelBusy 63 = false)
      ∧ (let s := rungIn ({ up with queues := [⟨0, 63, false, []⟩] }.modCarrel 63 fun c => { c with isOpen := true }) 0 0x14 [63];
        Rung s 0 0x14 1 (rung 0x14 [63]) ∧ s.carrelBusy 63 = true)
      ∧ up.session.state = .attached ∧ up.fwRuns = true ∧ up.session.orphanMs ≠ 0 ∧ { up.fw with activation := .handing }.activation = .handing
      ∧ up.linkUp = true ∧ up.fw.activation ≠ .handing ∧ up.ww.peerHold = [] := by
  unfold Rung RungFirst; and_intros <;> decide +kernel

def mapPl : List Byte := leBytes 8 0 ++ leBytes 8 0 ++ leBytes 8 65536 ++ [0, 0, 31]

theorem witness_MapsAndTreesAreSet :
    Rung (rungIn up 1 0x30 mapPl) 1 0x30 27 (rung 0x30 mapPl) ∧ mapBad up.fuses.part 0 0 65536 0 0 31 = none
      ∧ (rung 0x30 mapPl).payload 27 = mapPl ∧ (∀ l ∈ up.tr.leaves, l.overlaps 0 65536 = false)
      ∧ up.tr.leaves.length + 65536 / levelBytes 0 ≤ up.tr.pool ∧ Rung (rungIn mapped 1 0x30 mapPl) 1 0x30 27 (rung 0x30 mapPl)
      ∧ leaf0.overlaps 0 65536 = true ∧ leaf0 ∈ mapped.tr.leaves
      ∧ (let pl := leBytes 8 0 ++ leBytes 8 65536;
        Rung (rungIn mapped 1 0x31 pl) 1 0x31 16 (rung 0x31 pl) ∧ firstBad (spanBad mapped 0 65536) = none ∧ (rungIn mapped 1 0x31 pl).rangeInUse 0 65536 = false
          ∧ (let s := rungIn { mapped with hostReads := [⟨4, 65535, 0x1000, 1, .thread t0⟩] } 1 0x31 pl;
            Rung s 1 0x31 16 (rung 0x31 pl) ∧ firstBad (spanBad s 0 65536) = none ∧ s.rangeInUse 0 65536 = true))
      ∧ (let pl := leBytes 8 0 ++ leBytes 8 65536 ++ [1];
        Rung (rungIn mapped 1 0x32 pl) 1 0x32 17 (rung 0x32 pl) ∧ permOk (get8 ((rung 0x32 pl).payload 17) 16) = true
          ∧ (rungIn mapped 1 0x32 pl).rangeInUse 0 65536 = false
          ∧ (let s := rungIn { mapped with hostReads := [⟨4, 0, 0x1000, 8, .thread t0⟩] } 1 0x32 pl;
            Rung s 1 0x32 17 (rung 0x32 pl) ∧ firstBad (spanBad s 0 65536) = none ∧ s.rangeInUse 0 65536 = true))
      ∧ Rung (rungIn up 0 0x33 (zeros 8)) 0 0x33 8 (rung 0x33 (zeros 8)) ∧ up.bar0.lock.getLsbD 0 = false ∧ up.anyWork = false
      ∧ (let s := { up with bar0 := { up.bar0 with lock := 0x1F#5 } };
        Rung (rungIn s 0 0x33 (zeros 8)) 0 0x33 8 (rung 0x33 (zeros 8)) ∧ s.bar0.lock.getLsbD 0 = true ∧ s.bar0.lock.getLsbD 4 = true)
      ∧ Rung (rungIn (running []) 0 0x33 (zeros 8)) 0 0x33 8 (rung 0x33 (zeros 8)) ∧ (rungIn (running []) 0 0x33 (zeros 8)).anyWork = true
      ∧ Rung (rungIn up 0 0x33 (leBytes 8 4096)) 0 0x33 8 (rung 0x33 (leBytes 8 4096)) ∧ 4096 + 4096 ≤ up.fuses.part.fwBase
      ∧ importTable up.fuses.part up.mem.near 4 4096 0 = some [] ∧ ([] : List Leaf).length ≤ up.tr.pool
      ∧ Rung (rungIn up 0 0x34 (zeros 17)) 0 0x34 17 (rung 0x34 (zeros 17)) ∧ get8 ((rung 0x34 (zeros 17)).payload 17) 16 = 0
      ∧ (∀ l ∈ up.tr.leaves, field l.entry.toNat 10 8 ≠ 0) ∧ Rung (rungIn mapped 0 0x34 (zeros 17)) 0 0x34 17 (rung 0x34 (zeros 17))
      ∧ field leaf0.entry.toNat 10 8 = 0 := by
  unfold Rung RungFirst; and_intros <;> decide +kernel

def matrixItem : List Byte := words [(0, 1)]

theorem witness_QueuesTakeAndHandOnWork :
    Rung (rungIn up 1 0x40 [1]) 1 0x40 1 (rung 0x40 [1]) ∧ get8 ((rung 0x40 [1]).payload 1) 0 ≤ 1 ∧ (∀ q ∈ up.queues, q.num ≠ 1023)
      ∧ (let s := { up with queues := [⟨5, 1, false, []⟩] };
        Rung (rungIn s 1 0x41 [5, 0]) 1 0x41 2 (rung 0x41 [5, 0]) ∧ get16 ((rung 0x41 [5, 0]).payload 2) 0 = 5
          ∧ s.queue? 5 = some ⟨5, 1, false, []⟩
          ∧ (let pl := leBytes 8 (L 0x40) ++ leBytes 4 2 ++ [5, 0];
            Rung (rungIn s 1 0x42 pl) 1 0x42 14 (rung 0x42 pl) ∧ Clean s ∧ get64 ((rung 0x42 pl).payload 14) 0 = L 0x40
              ∧ get32 ((rung 0x42 pl).payload 14) 8 = 2 ∧ (L 0x40) % 64 = 0
              ∧ Lands (rungIn s 1 0x42 pl) .device .read (L 0x40 + 192 * 0) 192 .loc 0x40
              ∧ Lands (rungIn s 1 0x42 pl) .device .read (L 0x40 + 192 * 1) 192 .loc 0x100)
          ∧ (let pl := zeros 8 ++ leBytes 8 64 ++ leBytes 8 (2 ^ 40) ++ leBytes 8 32 ++ [5, 0];
            Rung (rungIn s 1 0x35 pl) 1 0x35 34 (rung 0x35 pl) ∧ get64 ((rung 0x35 pl).payload 34) 16 = 2 ^ 40))
      ∧ Rung (rungIn (offering up (.desc matrixItem)) 1 0x43 [5, 0]) 1 0x43 2 (rung 0x43 [5, 0])
      ∧ (let s := offering up (.desc matrixItem);
        s.offered 5 = some (⟨5, 0, false, [⟨2, 0, 1#32, 0#32, 0x42, .desc matrixItem, .waiting⟩]⟩, ⟨2, 0, 1#32, 0#32, 0x42, .desc matrixItem, .waiting⟩)
          ∧ (s.engineOf matrixItem).toOption = some (.matrix e0) ∧ descKind matrixItem ≠ 5 ∧ s.engineFull matrixItem (.matrix e0) = false) := by
  unfold Rung RungFirst Clean Lands; and_intros <;> decide +kernel

def stuck (cls acc : Nat) : Suspension := ⟨cls, acc, 0x20000, false, false, none⟩

def suspended (x : Suspension) : State := up.modThread t0 fun _ => { thr [] with state := .suspended, suspended := some x }

theorem witness_FaultsAreReportedAndAnswered :
    (suspended (stuck 1 0)).thread? t0 = some { thr [] with state := .suspended, suspended := some (stuck 1 0) }
      ∧ (suspended (stuck 1 0)).enginesRun = true ∧ (suspended (stuck 1 0)).session.detaching = none
      ∧ (suspended (stuck 1 0)).walkAgain (stuck 1 0) = some 1 ∧ suspends 1 = true ∧ (suspended (stuck 1 0)).faults.length < 1024
      ∧ (let s := { suspended (stuck 1 0) with tr := { up.tr with leaves := [⟨0x20000, 0, 0x7F#64⟩] } }; s.walkAgain (stuck 1 0) = none)
      ∧ (let f : FaultRec := ⟨3#32, 1, 0, 2, []⟩; let s := { suspended (stuck 1 0) with faults := [f] };
        (s.faults.find? fun f => f.cls == 1 && f.acc == (stuck 1 0).acc && f.span == (stuck 1 0).va / 65536) = some f)
      ∧ Rung (rungIn up 1 0x36 (leBytes 4 3 ++ [0])) 1 0x36 5 (rung 0x36 (leBytes 4 3 ++ [0])) ∧ (∀ f ∈ up.faults, f.id ≠ 3#32)
      ∧ (let x := { stuck 1 0 with reported := true, faultId := some 3#32 }; let f : FaultRec := ⟨3#32, 1, 0, 2, [.thread t0]⟩
        let s := rungIn { suspended x with faults := [f], tr := { up.tr with leaves := [⟨0x20000, 0, 0x7F#64⟩] } } 1 0x36 (leBytes 4 3 ++ [0]);
        Rung s 1 0x36 5 (rung 0x36 (leBytes 4 3 ++ [0])) ∧ (s.faults.find? fun f => f.id == BitVec.ofNat 32 (get32 ((rung 0x36 (leBytes 4 3 ++ [0])).payload 5) 0)) = some f
          ∧ get8 ((rung 0x36 (leBytes 4 3 ++ [0])).payload 5) 4 = 0 ∧ s.walkAgain x = none ∧ s.faultWait = []
          ∧ s.thread? t0 = some { thr [] with state := .suspended, suspended := some x }) := by
  unfold Rung RungFirst; and_intros <;> decide +kernel

/-! Records read from the local window at L 0. -/

def withLocal (s : State) (bs : List Byte) : State := { s with mem := { s.mem with loc := Store.empty.write 0 bs } }

/-- A group of one member, of rank 0, with one layer of 16 elements in the near tier. -/
def layerRec : List Byte := words [(0, 4), (8, 16), (0x10, 1), (0x18, 0x100), (0x20, 0x200), (0x28, 0x300), (0x30, 0x400)] 16

def group1 : Group := ⟨0, 1, leBytes 4 1 ++ zeros 16, [(0, 0)], 0, 100, some [layerRec], 0, 0, [], false, []⟩

def grouped : State := { mapped with coll := { up.coll with groups := [group1] } }

def schedule1 : List Byte := words [(0, 0x80 + 16 * 5), (4, 4), (0xC, 1), (0x30, 0x1000), (0x38, 0x2000)] 32

def scheduled : State := { grouped with update := ⟨[⟨4, schedule1, 0#32⟩], [], []⟩ }

theorem witness_GroupsAndSchedulesAreSet :
    (let m := leBytes 4 1 ++ leBytes 4 100 ++ zeros 8 ++ zeros 4; let pl := leBytes 8 (L 0) ++ [0, 0, 1, 0]
      let s := rungIn (withLocal up m) 1 0x50 pl;
      Rung s 1 0x50 12 (rung 0x50 pl) ∧ (∃ s', CommandReads s 1 (L 0) (16 + 4 * 1) m s' ∧ s'.coll.groups.length < 16
        ∧ s'.ww.fabric.rank = s.ww.fabric.rank) ∧ rankMapBad m 1 = false ∧ get16 m 0 = 1 ∧ field (mapEntry m 0) 11 0 = s.ww.fabric.rank)
      ∧ (let pl := leBytes 8 (L 0) ++ leBytes 4 1 ++ [0, 0]; let s := rungIn (withLocal grouped layerRec) 1 0x51 pl;
        Rung s 1 0x51 14 (rung 0x51 pl) ∧ s.group? 0 = some group1 ∧ s.groupBusy 0 = false ∧ s.updating 4 = false
          ∧ ∃ s', CommandReads s 1 (L 0) (64 * 1) layerRec s' ∧ layoutBad s' layerRec = none)
      ∧ (let s := rungIn grouped 1 0x52 [0, 0]; Rung s 1 0x52 2 (rung 0x52 [0, 0]) ∧ (s.group? 0).isSome = true ∧ s.groupBusy 0 = false)
      ∧ (let pl := leBytes 8 (L 0) ++ leBytes 4 4; let s := rungIn (withLocal grouped schedule1) 1 0x58 pl;
        Rung s 1 0x58 12 (rung 0x58 pl) ∧ s.updating 4 = false
          ∧ ∃ s', CommandReads s 1 (L 0) 128 schedule1 s' ∧ s'.layoutOf 0 4 = some (LayerLayout.of layerRec)
            ∧ s'.scheduleBad schedule1 4 (LayerLayout.of layerRec) = none)
      ∧ (let pl := leBytes 8 0x3000 ++ leBytes 4 4; let s := rungIn scheduled 1 0x59 pl;
        Rung s 1 0x59 12 (rung 0x59 pl) ∧ s.schedule? 4 = some ⟨4, schedule1, 0#32⟩ ∧ s.updating 4 = false
          ∧ s.layoutOf 0 4 = some (LayerLayout.of layerRec)
          ∧ s.spanIn isTier .read 0x3000 (ceilDiv ((Schedule.of schedule1).maskBits 16) 8) = true) := by
  unfold Rung RungFirst
  and_intros <;> first
    | decide +kernel
    | rfl
    | exact ⟨_, rfl, by decide +kernel, by decide +kernel⟩
    | exact ⟨_, rfl, by decide +kernel⟩
    | exact ⟨_, rfl, rfl, by decide +kernel⟩

theorem ok_of {ε α : Type} (x : Except ε α) (h : x.toOption.isSome = true) : ∃ a, x = .ok a := by
  cases x with
  | error e => exact absurd h (by simp [Except.toOption])
  | ok a => exact ⟨a, rfl⟩

theorem reads_of (s : State) (k va n : Nat) (h : ((s.clearPend k).commandRead va n).1.toOption.isSome = true) :
    ∃ b s', CommandReads s k va n b s' := by
  obtain ⟨b, hb⟩ := ok_of _ h
  exact ⟨b, _, Prod.ext hb rfl⟩

/-- A near-tier array, mapped one to one, can be reached. -/
theorem reachable_near (s : State) (acc : Acc) (r : Nat × Nat)
    (h : ∀ i, i < r.2 - r.1 → s.translateSpan .device acc (r.1 + i) 1 = .ok [(.mem .near (r.1 + i), 1)]) : Reachable s acc r := by
  intro v h1 h2
  refine ⟨.near, v, ?_⟩
  have := h (v - r.1) (by omega)
  rwa [Nat.add_sub_cancel' h1] at this

def routeRec (k ovf : Nat) : List Byte :=
  words [(0, 1 + 16 * k + 512 * ovf + 3 * 65536), (4, 2), (8, 1), (0x20, 0x1000), (0x24, 0x1FF0000), (0x28, 0x1100), (0x2C, 0x1FF0000),
    (0x30, 0x1200), (0x34, 0x1FF0000)] 16

theorem witness_RecordsAndTablesTakeEffect :
    (let s := rungIn (withLocal up (zeros 1)) 1 0x5C (leBytes 8 (L 0)); Rung s 1 0x5C 8 (rung 0x5C (leBytes 8 (L 0))) ∧ s.policyKind 1 ≠ some 1
        ∧ ∃ s' t1, CommandReads s 1 (L 0) 32 (zeros 32) s' ∧ setRoutingDevice (zeros 32) s' = (ansOk [], t1))
      ∧ (let s := rungIn (withLocal up (routeRec 1 0)) 1 0x5C (leBytes 8 (L 0)); Rung s 1 0x5C 8 (rung 0x5C (leBytes 8 (L 0)))
        ∧ s.policyKind 1 = some 1 ∧ (∃ s', CommandReads s 1 (L 0) 64 (routeRec 1 0) s' ∧ s'.fuses = s.fuses ∧ s'.routing.layers.length < 4096
          ∧ ∀ f ∈ s'.validFlows, f.layer ≠ field (get32 (routeRec 1 0) 0) 31 16) ∧ layerBad s.fuses.part (routeRec 1 0) = false)
      ∧ (let d := leBytes 4 0x10152 ++ zeros 12; let pl := leBytes 8 (L 0) ++ leBytes 4 65534; let s := rungIn (withLocal up d) 1 0x5E pl;
        Rung s 1 0x5E 12 (rung 0x5E pl) ∧ (∃ s', CommandReads s 1 (L 0) 16 d s' ∧ (s'.policies.filter fun p => p.layer != 65534).length < 16384)
          ∧ field (get32 d 0) 15 8 ≠ 0 ∧ policyBad d = false ∧ policyBad (leBytes 4 0x150 ++ zeros 12) = true)
      ∧ (let pl := leBytes 8 (L 0) ++ leBytes 4 256 ++ [1, 0]; let s := rungIn up 1 0x22 pl;
        Rung s 1 0x22 14 (rung 0x22 pl) ∧ (tableShape 1).1 = 256 ∧ (s.tables.table 1).reload = none
          ∧ ∃ b s', CommandReads s 1 (L 0) (256 * 16) b s')
      ∧ (let r : Reload := ⟨some 1, 1#32, 0#32, [], false, [.vector e0]⟩;
        let s := { up with tables := { up.tables with programs := { Banked.reset with reload := some r } } };
        (s.tables.table 3).reload = some r ∧ .vector e0 ∈ r.left ∧ s.userBusy (.vector e0) = false
          ∧ (s.boundBanks 3).contains (!(s.tables.table 3).active) = false ∧ s.carrelFull 1 = false
          ∧ { r with written := true }.written = true) := by
  unfold Rung RungFirst
  and_intros <;> first
    | decide +kernel
    | exact ⟨_, _, rfl, rfl⟩
    | exact ⟨_, rfl, rfl, by decide +kernel, by decide +kernel⟩
    | exact ⟨_, rfl, by decide +kernel⟩
    | exact reads_of _ _ _ _ (by decide +kernel)

def injectPl (kind mode unit : Nat) : List Byte := leBytes 8 5 ++ leBytes 4 0x80000000 ++ leBytes 2 unit ++ leBytes 1 kind ++ leBytes 1 mode

theorem witness_InjectionAndDebugObeyLock :
    (∀ p ∈ [(1, 4, 7), (2, 2, 11), (3, 2, 7), (4, 2, 12), (5, 2, 63)],
        let pl := injectPl p.1 p.2.1 p.2.2
        Rung (rungIn up 0 0x70 pl) 0 0x70 16 (rung 0x70 pl) ∧ (rung 0x70 pl).payload 16 = pl ∧ get8 pl 0x0E = p.1
          ∧ get32 pl 8 ≤ 0x80000000 ∧ get16 pl 0x0C < injectUnits up.fuses.part p.1 ∧ get8 pl 0x0F ≤ (if p.1 = 1 then 4 else 2))
      ∧ up.bar0.lock.getLsbD 3 = false ∧ up.bar0.lock.getLsbD 2 = false
      ∧ (let s := rungIn { up with bar0 := { up.bar0 with lock := 12#5 } } 0 0x78 [1];
        Rung s 0 0x78 1 (rung 0x78 [1]) ∧ get8 ((rung 0x78 [1]).payload 1) 0 ≤ 1 ∧ s.bar0.lock.getLsbD 2 = true ∧ s.bar0.lock.getLsbD 3 = true)
      ∧ Rung (rungIn up 0 0x78 [0]) 0 0x78 1 (rung 0x78 [0]) := by
  unfold Rung RungFirst; and_intros <;> decide +kernel

theorem leBytes_length : ∀ n v : Nat, (leBytes n v).length = n
  | 0, _ => rfl
  | n + 1, v => by simp [leBytes, leBytes_length n]
theorem packBits_length (l : List Bool) : (packBits l).length = ceilDiv l.length 8 := by
  simp [packBits, packCodes, leBytes_length, fB1, fmtWidth]
theorem flat_length {α β : Type} (k : Nat) (f : α → List β) (h : ∀ a, (f a).length = k) (l : List α) : (l.flatMap f).length = k * l.length := by
  induction l with
  | nil => rfl
  | cons a l ih => simp [h, ih, Nat.mul_add]; omega
theorem debugBytes_length (c : Nat) (a : List AccPlace) : (debugBytes c a ⟨0, 0, 64, 64, [0]⟩ 0).length = 16896 := by
  simp only [debugBytes, List.length_append, packBits_length, List.length_map]
  rw [flat_length 4 _ (fun _ => by simp [leBytes_length]), flat_length 64 _ (fun _ => by simp), List.length_range]
  rfl

/-- The 16,896 bytes of DEBUG_READ's tile are debugBytes_length. -/
theorem witness_IdentityLedgerAndCountersAnswer :
    RungFirst (rungIn idleUp 0 0x80 (zeros 4)) 0 0x80 4 (rung 0x80 (zeros 4)) ∧ get32 ((rung 0x80 (zeros 4)).payload 4) 0 ≤ (rungIn idleUp 0 0x80 (zeros 4)).chain.length
      ∧ RungFirst (rungIn idleUp 0 0x81 (zeros 48 ++ [3, 0, 0, 0])) 0 0x81 52 (rung 0x81 (zeros 48 ++ [3, 0, 0, 0]))
      ∧ get32 ((rung 0x81 (zeros 48 ++ [3, 0, 0, 0])).payload 52) 0x30 ≤ 3
      ∧ RungFirst (rungIn idleUp 0 0x90 (zeros 4)) 0 0x90 4 (rung 0x90 (zeros 4))
      ∧ Rung (rungIn up 1 0x91 [255, 255, 255, 255, 255, 255, 0]) 1 0x91 7 (rung 0x91 [255, 255, 255, 255, 255, 255, 0])
      ∧ (up.counterBlocks.filter fun b => b.scopeKind == 0 && (0xFFFF == 0xFFFF || b.group == 0xFFFF) && (0xFFFFFFFF == 0xFFFFFFFF || b.scope == 0xFFFFFFFF)).length ≠ 0
      ∧ (up.counterBlocks.filter fun b => b.scopeKind == 255 && (0xFFFF == 0xFFFF || b.group == 0xFFFF)).length = 0
      ∧ (let pl := leBytes 8 (L 0x100) ++ [64, 0, 0, 0]; let s := rungIn { up with fw := { up.fw with debugOn := true, debugEver := true } } 1 0x79 pl;
        Rung s 1 0x79 12 (rung 0x79 pl) ∧ Clean s ∧ s.fw.debugOn = true ∧ get16 ((rung 0x79 pl).payload 12) 8 = 64
          ∧ s.cluster? e0 = some Cluster.reset ∧ region? 2 0 0 = some ⟨0, 0, 64, 64, [0]⟩ ∧ Cluster.reset.matrix.queue = [] ∧ Cluster.reset.matrix.active = none
          ∧ Cluster.reset.matrix.preempted = none ∧ Cluster.reset.matrix.held = [] ∧ get64 ((rung 0x79 pl).payload 12) 0 ≠ 0
          ∧ (fullQueues s 32).cluster? e0 = some { Cluster.reset with
              matrix := { MatrixEngine.reset with queue := List.replicate 32 ⟨0, .queue 0, false, zeros 192, []⟩ }
              vector := ⟨List.replicate 32 ⟨0, .queue 0, false, zeros 192, []⟩, none⟩ }
          ∧ Rung (fullQueues s 1) 1 0x79 12 (rung 0x79 pl)
          ∧ (fullQueues s 31).cluster? e0 = some { Cluster.reset with
              matrix := { MatrixEngine.reset with queue := List.replicate 31 ⟨0, .queue 0, false, zeros 192, []⟩ }
              vector := ⟨List.replicate 31 ⟨0, .queue 0, false, zeros 192, []⟩, none⟩ }
          ∧ Lands s .device .write (L 0x100) 16896 .loc 0x100) := by
  unfold Rung RungFirst Clean Lands; and_intros <;> decide +kernel

/-! Firmware: an image of one page. -/

theorem foldl_keeps {α β : Type} (P : α → Prop) (f : α → β → α) (hf : ∀ a b, P a → P (f a b)) (l : List β) (a : α) (ha : P a) :
    P (l.foldl f a) := by
  induction l generalizing a with
  | nil => exact ha
  | cons b l ih => exact ih _ (hf a b ha)

theorem shaRound_length (h : List Nat) (kw : Nat × Nat) (hl : h.length = 8) : (shaRound h kw).length = 8 := by
  unfold shaRound; split <;> simp_all

theorem sha384_length (m : List Byte) : (sha384 m).length = 48 := by
  have key : ∀ l : List (List Byte), (l.foldl (shaBlock shaK) sha384Init).length = 8 := fun l =>
    foldl_keeps (fun h : List Nat => h.length = 8) _ (fun h b hl => by
      have := foldl_keeps (fun h : List Nat => h.length = 8) shaRound (fun a b => shaRound_length a b)
        (List.zip shaK (shaSchedule 64 ((chunks 8 16 b).map beNat).reverse).reverse) h hl
      simp [shaBlock, hl, this]) l _ rfl
  have be : ∀ v, (beBytes 8 v).length = 8 := fun v => by simp [beBytes, leBytes]
  simp only [sha384]
  generalize hh : List.foldl (shaBlock shaK) sha384Init _ = h
  have hl : h.length = 8 := by rw [← hh]; exact key _
  match h, hl with
  | [a, b, c, d, e, f, g, i], _ => simp [be]

def imageHeader : List Byte :=
  leBytes 4 0x49574651 ++ leBytes 2 0x100 ++ leBytes 2 512 ++ leBytes 4 4096 ++ leBytes 4 3 ++ leBytes 4 9 ++ zeros 12

def imagePage : List Byte := imageHeader ++ (sha384 (zeros 3584) ++ (zeros 432 ++ zeros 3584))

def imageHost : HostView := [⟨0x1000, leBytes 8 0x2000⟩, ⟨0x2000, imagePage⟩]

theorem zeros_length (n : Nat) : (zeros n).length = n := List.length_replicate

theorem zeros_drop (n k : Nat) : (zeros n).drop k = zeros (n - k) := List.drop_replicate

theorem zeros_take (n k : Nat) : (zeros n).take k = zeros (min k n) := List.take_replicate

theorem zeros_append (n k : Nat) : zeros n ++ zeros k = zeros (n + k) := List.replicate_append_replicate

theorem imagePage_length : imagePage.length = 4096 := by
  have : imageHeader.length = 32 := by decide +kernel
  simp [imagePage, this, sha384_length, zeros_length, zeros_append]

/-- The page with its digest left open: the kernel need not compute it. -/
def pageOf (dg : List Byte) : List Byte := imageHeader ++ (dg ++ (zeros 432 ++ zeros 3584))

theorem page_checks (s : State) (hs : s.fuses = Fuses.sample) (dg : List Byte) (hd : sha384 (zeros 3584) = dg) (hl : dg.length = 48) :
    (s.checkImage (pageOf dg) 1 0 true).toOption.isSome = true := by
  have h0 : imageHeader.length = 32 := by decide +kernel
  have h1 : (pageOf dg).drop 512 = zeros 3584 := by
    simp [pageOf, List.drop_append, h0, hl, zeros_drop, zeros_append,
      List.drop_eq_nil_of_le (show imageHeader.length ≤ 512 by omega),
      List.drop_eq_nil_of_le (show dg.length ≤ 480 by omega)]
  have h2 : ((pageOf dg).drop 0x20).take 48 = dg := by
    simp [pageOf, h0, hl]
  have h3 : ((pageOf dg).drop 0xB0).take 0x150 = zeros 336 := by
    simp [pageOf, List.drop_append, h0, hl, zeros_drop, zeros_take, zeros_append,
      List.drop_eq_nil_of_le (show imageHeader.length ≤ 176 by omega),
      List.drop_eq_nil_of_le (show dg.length ≤ 144 by omega)]
  have g (o n : Nat) (h : o + n ≤ 32) : getLe (pageOf dg) o n = getLe imageHeader o n := by
    unfold getLe pageOf
    rw [List.drop_append_of_le_length (by omega), List.take_append_of_le_length (by simp; omega)]
  have m : imageMalformed (pageOf dg) 1 = false := by
    simp only [imageMalformed, h3, get32, get16, g _ _ (by omega : 0 + 4 ≤ 32), g _ _ (by omega : 4 + 2 ≤ 32), g _ _ (by omega : 6 + 2 ≤ 32),
      g _ _ (by omega : 8 + 4 ≤ 32), g _ _ (by omega : 0x18 + 4 ≤ 32), g _ _ (by omega : 0x1C + 4 ≤ 32)]
    decide +kernel
  have r : get32 (pageOf dg) 0x14 = 0 := by rw [get32, g _ _ (by omega)]; decide +kernel
  have k : get8 (pageOf dg) 0x18 = 0 := by rw [get8, g _ _ (by omega)]; decide +kernel
  have v : (!Fuses.sample.revokedKeys.getLsbD 0) = true := by decide +kernel
  have w : s.signed (pageOf dg) true = true := by
    simp only [State.signed, h1, h2, k, hs, hd, beq_self_eq_true, v, Bool.and_true]
    rfl
  simp [State.checkImage, m, r, w, Except.toOption]

theorem image_checks (s : State) (hs : s.fuses = Fuses.sample) : (s.checkImage imagePage 1 0 true).toOption.isSome = true :=
  page_checks s hs _ rfl (sha384_length _)

theorem mapM_range {α : Type} (f : Nat → Option α) (bs : List α) (h : ∀ i, i < bs.length → f i = bs[i]?) :
    (List.range bs.length).mapM f = some bs := by
  induction bs using List.reverseRecOn with
  | nil => rfl
  | append_singleton l a ih =>
    have h1 : ∀ i, i < l.length → f i = l[i]? := fun i hi => by
      rw [h i (by simp; omega), List.getElem?_append_left hi]
    have h2 : f l.length = some a := by rw [h l.length (by simp)]; simp
    simp [List.range_succ, List.mapM_append, ih h1, h2]

theorem hostPages_one (h : HostView) (list : Nat) (bs p : List Byte) (h1 : hostBytes h list 8 = some bs)
    (h2 : hostBytes h (get64 bs 0) 4096 = some p) : hostPages h list 1 = some p := by
  have e : hostPages h list 1 = (hostBytes h list 8).bind fun es =>
    (((hostBytes h (get64 es 0) 4096).bind fun p => some [p]).bind fun ps => some ps.flatten) := by
    simp [hostPages, List.range_one]
  rw [e, h1, Option.bind_some, h2]
  simp

theorem image_read : hostPages imageHost 0x1000 1 = some imagePage := by
  have page := mapM_range (fun i => hostByte imageHost (0x2000 + i)) imagePage fun i hi => by
    rw [imagePage_length] at hi
    unfold hostByte imageHost
    rw [List.find?_cons_of_neg, List.find?_cons_of_pos]
    · simp
    · simp only [imagePage_length]; simp; omega
    · have : (leBytes 8 8192).length = 8 := by decide
      simp [this]
      omega
  rw [imagePage_length] at page
  have entry : hostBytes imageHost 0x1000 8 = some (leBytes 8 0x2000) := by decide +kernel
  exact hostPages_one _ _ _ _ entry (by
    rw [show get64 (leBytes 8 0x2000) 0 = 0x2000 by decide]
    unfold hostBytes; exact page)

def romUp : State := { up with
  session := Session.reset, ledger := ⟨[], 0, 0, []⟩, fw := { Firmware.reset with start := .romReady }, tr := State.reset.tr }

def loadPl : List Byte := leBytes 8 0x1000 ++ leBytes 4 1 ++ zeros 12

def fabricBytes : List Byte := zeros 28 ++ leBytes 4 (crc32 (zeros 28))

theorem readImage_ok (s : State) (h : HostView) (list hist : Nat) (b : List Byte) (ok : Bool) (i : Image) (hm : s.cfg.busMaster = true)
    (h1 : hostPages h list 1 = some b) (h2 : s.checkImage b 1 s.fuses.svnMin.toNat ok = .ok i) :
    s.readImage h ok list 1 hist 0 = .ok (i, []) := by
  simp [State.readImage, hm, h1, h2]

theorem readImage_fails (s : State) (h : HostView) (list hist : Nat) (ok : Bool) (hm : s.cfg.busMaster = true)
    (h1 : hostPages h list 1 = none) : s.readImage h ok list 1 hist 0 = .error stHostDmaError := by
  simp [State.readImage, hm, h1]

theorem image_loads (s : State) (hs : s.fuses = Fuses.sample) (hm : s.cfg.busMaster = true) :
    ∃ i, s.readImage imageHost true 0x1000 1 0 0 = .ok (i, []) := by
  obtain ⟨i, hi⟩ := ok_of _ (image_checks s hs)
  refine ⟨i, readImage_ok s _ _ _ _ _ i hm image_read ?_⟩
  rw [hs]
  exact hi

theorem witness_FirmwareLoadsAndStarts :
    (let s := rungIn romUp 0 1 loadPl;
        s.carrel? 0 = some (rung 1 loadPl) ∧ s.bar0.pend.getLsbD 0 = true ∧ (rung 1 loadPl).opcode = 1 ∧ (rung 1 loadPl).payloadLen = 24
          ∧ (rung 1 loadPl).reqSeq = (rung 1 loadPl).rspSeq + 1#32 ∧ s.fw.start = .romReady ∧ s.fw.activation = .none ∧ s.midRequest 0 = false
          ∧ s.session.state = .detached ∧ (rung 1 loadPl).payload 24 = loadPl ∧ loadBad loadPl = none ∧ s.readsHeld = false
          ∧ (rungIn { romUp with cfg := { romUp.cfg with d3hot := true } } 0 1 loadPl).readsHeld = true
          ∧ s.readImage [] true 0x1000 1 0 0 = .error stHostDmaError
          ∧ ∃ i, s.readImage imageHost true 0x1000 1 0 0 = .ok (i, []))
      ∧ (let s := { romUp with fw := { romUp.fw with start := .fwStarting } };
        s.fw.start = .fwStarting ∧ s.ledger.next = 0 ∧ noReport.fatal = none ∧ noReport.fabricBlock = none
          ∧ { noReport with fabricBlock := some fabricBytes }.fabricBlock = some fabricBytes)
      ∧ crc32 (fabricBytes.take 28) = get32 fabricBytes 0x1C ∧ (fabricOf fabricBytes).valid up.fuses.part = true := by
  and_intros <;> first
    | decide +kernel
    | exact readImage_fails _ _ _ _ _ rfl (by decide +kernel)
    | exact image_loads _ rfl rfl

/-- Carrel 0 holds n completions. -/
def crowded (n : Nat) (s : State) : State :=
  s.modCarrel 0 fun c => { c with hold := List.replicate n ⟨0#32, 0#32, 0, 0, 0#32, 0, 0, 0#32, 0#32⟩ }

theorem crowded_full (n : Nat) (s : State) (hn : 65536 ≤ n) (h : (s.carrel? 0).isSome = true) : (crowded n s).carrelFull 0 = true := by
  obtain ⟨c, hc⟩ := Option.isSome_iff_exists.1 h
  have : (crowded n s).carrel? 0 = some { c with hold := List.replicate n ⟨0#32, 0#32, 0, 0, 0#32, 0, 0, 0#32, 0#32⟩ } := by
    simp_all [crowded, State.carrel?, State.modCarrel]
  simp [State.carrelFull, this, hn]

theorem witness_FirmwareIsReplaced :
    (let pl := leBytes 8 0x1000 ++ leBytes 4 1; let s := rungIn up 0 0x20 pl;
        Rung s 0 0x20 12 (rung 0x20 pl) ∧ (rung 0x20 pl).payload 12 = pl ∧ s.readsHeld = false ∧ s.carrelFull 0 = false
          ∧ (rungIn { up with cfg := { up.cfg with d3hot := true } } 0 0x20 pl).readsHeld = true
          ∧ Rung (rungIn { up with cfg := { up.cfg with d3hot := true } } 0 0x20 pl) 0 0x20 12 (rung 0x20 pl)
          ∧ s.readStaged [] true 0x1000 1 = .error stHostDmaError ∧ ∃ i, s.readStaged imageHost true 0x1000 1 = .ok i)
      ∧ (Rung (rungIn up 0 0x21 (zeros 4)) 0 0x21 4 (rung 0x21 (zeros 4)) ∧ up.fw.staged = none ∧ up.fw.pendingAct = none)
      ∧ (let s := { up with fw := { up.fw with staged := some ⟨2#32, 0#32, 3#32, 1#384⟩ } };
        Rung (rungIn s 0 0x21 (zeros 4)) 0 0x21 4 (rung 0x21 (zeros 4)) ∧ s.fw.staged.isSome = true ∧ s.fw.pendingAct = none)
      ∧ (let s := { up with fw := { up.fw with activation := .deferred, pendingAct := some ⟨0#32, 1#32, 5⟩ } };
        s.fw.activation = .deferred ∧ s.fw.start = .ready ∧ s.power.declared = [] ∧ s.fw.pendingAct = some ⟨0#32, 1#32, 5⟩ ∧ s.carrelFull 0 = false)
      ∧ (crowded 65536 { up with fw := { up.fw with activation := .deferred } }).carrelFull 0 = true
      ∧ (let s := { up with fw := { up.fw with activation := .handing, staged := some ⟨2#32, 0#32, 3#32, 1#384⟩ } };
        s.fw.activation = .handing ∧ s.fw.staged = some ⟨2#32, 0#32, 3#32, 1#384⟩ ∧ NothingHeld s = true) := by
  unfold Rung RungFirst
  refine ⟨⟨by decide +kernel, by decide +kernel, by decide +kernel, by decide +kernel, by decide +kernel, by decide +kernel, ?_, ?_⟩, by decide +kernel,
    by decide +kernel, by decide +kernel, crowded_full _ _ (Nat.le_refl _) rfl, by decide +kernel⟩
  · have h : hostPages [] 0x1000 1 = none := by decide +kernel
    have hm : (rungIn up 0 0x20 (leBytes 8 0x1000 ++ leBytes 4 1)).cfg.busMaster = true := rfl
    simp [State.readStaged, hm, h]
  · obtain ⟨i, hi⟩ := ok_of _ (image_checks (rungIn up 0 0x20 (leBytes 8 0x1000 ++ leBytes 4 1)) rfl)
    refine ⟨i, ?_⟩
    have hm : (rungIn up 0 0x20 (leBytes 8 0x1000 ++ leBytes 4 1)).cfg.busMaster = true := rfl
    have hl : (rungIn up 0 0x20 (leBytes 8 0x1000 ++ leBytes 4 1)).bar0.lock.getLsbD 1 = false := rfl
    have hv : (rungIn up 0 0x20 (leBytes 8 0x1000 ++ leBytes 4 1)).fuses.svnMin.toNat = 0 := rfl
    simp [State.readStaged, hm, image_read, hl, hv, hi, -BitVec.getLsbD_eq_getElem]

/-! Engines: arrays in the local window of cluster 0. -/

/-- The upper word of a local address. -/
def H : Nat := 0x1FF0000

/-- LF32 D[0..n-1] = A + B, with B and D where they are given. -/
def vaddDesc (n at_ : Nat) : List Byte :=
  words [(0, 3 + 16), (4, n - 1), (0x10, 0x100), (0x14, H + 10 * 2 ^ 25), (0x18, 1), (0x30, 0x400), (0x34, H + 10 * 2 ^ 25), (0x38, 1),
    (0x94, at_), (0x98, H + 10 * 2 ^ 25), (0x9C, 1)]

def work (d : List Byte) : Work := ⟨7, .thread t0 0 0, false, d, []⟩

def vectorQueue (s : State) (d : List Byte) : State := s.modCluster e0 fun c => { c with vector := ⟨[work d], none⟩ }

theorem witness_VectorInstructionsRunToTheirEnd :
    (vectorQueue up (vaddDesc 300 0x900)).cluster? e0 = some { Cluster.reset with vector := ⟨[work (vaddDesc 300 0x900)], none⟩ }
      ∧ up.engineFree (work (vaddDesc 300 0x900)) = true ∧ Cluster.reset.tileReady (work (vaddDesc 300 0x900)) = true ∧ Clean (vectorQueue up (vaddDesc 300 0x900))
      ∧ vecBad (vaddDesc 300 0x900) (work (vaddDesc 300 0x900)).queued = none ∧ (VecDesc.of (vaddDesc 300 0x900)).op = 1
      ∧ (VecDesc.of (vaddDesc 300 0x900)).overlaps (vaddDesc 300 0x900) = false
      ∧ (∀ r ∈ (VecDesc.of (vaddDesc 300 0x900)).arrays (vaddDesc 300 0x900), AtHome e0 r)
      ∧ vecBad (vaddDesc 300 0x104) (work (vaddDesc 300 0x104)).queued = none
      ∧ (VecDesc.of (vaddDesc 300 0x104)).overlaps (vaddDesc 300 0x104) = true := by
  unfold Clean AtHome; and_intros <;> decide +kernel

/-- One L8 product row into tile 0 of shape 128 × 128, K positions; ADD where add is 1. -/
def matDesc (k add : Nat) : List Byte :=
  words [(0, 1 + 2 * 16 + 3 * 64 + 3 * 1024), (4, 0x101), (8, k), (0xC, 512 * add), (0x10, 0x100), (0x14, H), (0x18, 12), (0x30, 0x200), (0x34, H),
    (0x38, 12)]

/-- OUT[0][0] of class INPUT, K = 1. -/
def inputDesc : List Byte :=
  words [(0, 1 + 10 * 64 + 10 * 1024), (4, 0x101), (8, 1), (0x10, 0x100), (0x14, H), (0x18, 4), (0x30, 0x200), (0x34, H), (0x38, 4),
    (0x50, 0x300), (0x54, H), (0x58, 4)]

def matrixQueue (s : State) (d : List Byte) : State := s.modCluster e0 fun c => { c with matrix := { c.matrix with queue := [work d] } }

/-- The same row with its signs as BIN_OUT, away from what it reads. -/
def binDesc : List Byte :=
  words [(0, 1 + 2 * 16 + 3 * 64 + 2 * 2 ^ 20 + 2 ^ 22), (4, 0x101), (8, 9), (0x10, 0x100), (0x14, H), (0x18, 12), (0x30, 0x200), (0x34, H),
    (0x38, 4), (0x78, 0x300), (0x7C, H), (0x80, 4)]

def tile0 : Region := ⟨0, 0, 128, 128, [0]⟩

def matOp (w : Work) : MatrixOp := { newMatrixOp w with added := [1], next := 1 }

theorem witness_MatrixOperationsStreamTheirGroups :
    (∀ d ∈ [matDesc 9 0, matDesc 9 1, inputDesc],
        (matrixQueue up d).cluster? e0 = some { Cluster.reset with matrix := { MatrixEngine.reset with queue := [work d] } }
          ∧ { MatrixEngine.reset with queue := [work d] }.head? = some (work d) ∧ isDrain d = false ∧ (work d).isDebug = false ∧ Cluster.reset.isRead (work d) = false
          ∧ (matrixQueue up d).engineFree (work d) = true ∧ matBad d = none)
      ∧ (MatDesc.of inputDesc).cls = 0 ∧ up.conv[e0.cdie]? = some ⟨[]⟩ ∧ Clean (matrixQueue up (matDesc 9 0))
      ∧ (MatDesc.of (matDesc 9 0)).cls ≠ 0 ∧ region? (MatDesc.of (matDesc 9 0)).shape (MatDesc.of (matDesc 9 0)).slot (MatDesc.of (matDesc 9 0)).fmt = some tile0
      ∧ (MatDesc.of (matDesc 9 0)).add = false ∧ (MatDesc.of (matDesc 9 1)).add = true ∧ (MatDesc.of (matDesc 9 1)).sparse = false
      ∧ (MatDesc.of (matDesc 9 0)).m = 1 ∧ (MatDesc.of (matDesc 9 0)).n = 1 ∧ (MatDesc.of (matDesc 9 0)).k = 9
      ∧ (∀ r ∈ (MatDesc.of (matDesc 9 0)).arrays (matDesc 9 0), AtHome e0 r)
      ∧ (∀ v ∈ [work (matDesc 9 0)].drop 1, v.urgent = true → (work (matDesc 9 0)).urgent = true)
      ∧ (∀ r ∈ (MatDesc.of binDesc).reads binDesc, (rowsSpan (MatDesc.of binDesc).binOut 4 1 2).2 ≤ r.1 ∨ r.1 + r.2 ≤ (rowsSpan (MatDesc.of binDesc).binOut 4 1 2).1) ∧ (MatDesc.of binDesc).binOut ≠ 0 ∧ matBad binDesc = none
      ∧ (∀ r ∈ (MatDesc.of binDesc).arrays binDesc, AtHome e0 r)
      ∧ (let s := up.modCluster e0 fun c => { c with matrix := { c.matrix with active := some (matOp (work (matDesc 9 0))) } };
        s.cluster? e0 = some { Cluster.reset with matrix := { MatrixEngine.reset with active := some (matOp (work (matDesc 9 0))) } }
          ∧ (matOp (work (matDesc 9 0))).suspended = none ∧ (matOp (work (matDesc 9 0))).ended = none ∧ (matOp (work (matDesc 9 0))).added ≠ []
          ∧ s.enginesRun = true ∧ s.viewHolds (matOp (work (matDesc 9 0))).view = true
          ∧ s.viewHolds [(0x100, [1#8])] = false ∧ (MatDesc.of (matDesc 9 0)).binOut = 0 ∧ (1 + 1) * (MatDesc.of (matDesc 9 0)).group < 9) := by
  unfold Clean AtHome; and_intros <;> decide +kernel

/-- A drain of tile 0 of shape 64 × 64 to LF32. -/
def drainDesc : List Byte := words [(0, 2), (0x10, 64 + 10 * 512), (0x14, 256), (0x18, 0x1000), (0x1C, H)]

theorem witness_DrainsAndInputsWriteTheirRows :
    (matrixQueue up drainDesc).cluster? e0 = some { Cluster.reset with matrix := { MatrixEngine.reset with queue := [work drainDesc] } }
      ∧ { MatrixEngine.reset with queue := [work drainDesc] }.head? = some (work drainDesc) ∧ isDrain drainDesc = true ∧ (work drainDesc).isDebug = false
      ∧ (matrixQueue up drainDesc).engineFree (work drainDesc) = true ∧ drainBad drainDesc = none ∧ Clean (matrixQueue up drainDesc)
      ∧ (∀ i, i < (DrainDesc.of drainDesc).tiles → ((DrainDesc.of drainDesc).tile i).isSome = true)
      ∧ (∀ r ∈ (DrainDesc.of drainDesc).arrays drainDesc, AtHome e0 r)
      ∧ (let op : ConvOp := ⟨⟨3, 15⟩, work inputDesc, 0, Counts.zero, [], none, none, false⟩;
        let s := { up with conv := up.conv.modify 3 fun _ => ⟨[op]⟩ };
        s.conv[3]? = some ⟨[op]⟩ ∧ op.ended = none ∧ op.suspended = none ∧ s.enginesRun = true ∧ Clean s ∧ s.viewHolds op.view = true ∧ s.viewHolds [(0x100, [1#8])] = false
          ∧ (MatDesc.of inputDesc).cls = 0
          ∧ 0 < (MatDesc.of inputDesc).k ∧ op.nextRow ≤ (MatDesc.of inputDesc).m)
      ∧ ∀ r ∈ (MatDesc.of inputDesc).arrays inputDesc, AtHome e0 r := by
  unfold Clean AtHome; and_intros <;> decide +kernel

def busy (queue : List Work) (pre : Option MatrixOp) (act : Option MatrixOp) : State :=
  up.modCluster e0 fun c => { c with matrix := { c.matrix with queue := queue, active := act, preempted := pre } }

theorem witness_PreemptionKeepsTheTile :
    let op := matOp (work (matDesc 9 0))
    let meets : Work := ⟨8, .thread t0 0 0, true, matDesc 1 0, []⟩
    let apart : Work := ⟨8, .thread t0 0 0, true, inputDesc, []⟩
    (∀ w ∈ [meets, apart], (busy [w] none (some op)).cluster? e0
          = some { Cluster.reset with matrix := { MatrixEngine.reset with queue := [w], active := some op } }
        ∧ w.urgent = true) ∧ op.work.urgent = false ∧ op.ended = none
      ∧ { op with ended := some ⟨0, 0⟩, suspended := some (stuck 1 1) }.suspended ≠ none
      ∧ regionsMeet (footprint meets.desc) (footprint op.work.desc) = true ∧ regionsMeet (footprint apart.desc) (footprint op.work.desc) = false
      ∧ (busy [] (some op) none).cluster? e0 = some { Cluster.reset with matrix := { MatrixEngine.reset with preempted := some op } }
      ∧ (busy [] (some op) none).enginesRun = true := by
  and_intros <;> decide +kernel

theorem witness_EndedOperationsWriteTheirRecord :
    (let op := { newVectorOp (work (vaddDesc 1 0x800)) with ended := some ⟨0, 0⟩ };
        let s := up.modCluster e0 fun c => { c with vector := ⟨[], some op⟩ };
        s.cluster? e0 = some { Cluster.reset with vector := ⟨[], some op⟩ } ∧ op.suspended = none ∧ Clean s
          ∧ RecordFits s (VecDesc.of op.work.desc).status 96)
      ∧ (∀ d ∈ [matDesc 9 0, drainDesc], let op := { newMatrixOp (work d) with ended := some ⟨0, 0⟩ };
        (busy [] none (some op)).cluster? e0 = some { Cluster.reset with matrix := { MatrixEngine.reset with active := some op } }
          ∧ op.suspended = none ∧ Clean (busy [] none (some op)) ∧ descAddr d 0x88 = 0 ∧ isDrain d = (d == drainDesc) ∧ (MatDesc.of d).stepEnd = false)
      ∧ (let op : ConvOp := ⟨e0, work inputDesc, 1, Counts.zero, [], none, some ⟨0, 0⟩, false⟩;
        let s := { up with conv := up.conv.modify 0 fun _ => ⟨[op]⟩ };
        s.conv[0]? = some ⟨[op]⟩ ∧ op.ended = some ⟨0, 0⟩ ∧ op.suspended = none ∧ Clean s ∧ (MatDesc.of inputDesc).stepEnd = false
          ∧ RecordFits s (MatDesc.of inputDesc).status 96)
      ∧ (let d := words [(0, 4), (0x88, 0x200), (0x8C, H)]; let op := { newRoutingOp (work d) with ended := some ⟨0x0111, 0⟩ };
        let s := up.setRouting 0 (some op);
        s.router? 0 = some ⟨[], [], some op⟩ ∧ op.suspended = none ∧ Clean s ∧ (RouteDesc.of d).status ≠ 0
          ∧ Lands s .device .write (RouteDesc.of d).status 64 .loc 0x200 ∧ RecordFits s (RouteDesc.of d).status 64) := by
  unfold Clean
  and_intros <;> first
    | decide +kernel
    | exact Or.inl (by decide +kernel)
    | (unfold Lands; decide +kernel)
    | exact Or.inr ⟨.loc, 0x200, by unfold Lands; decide +kernel⟩

theorem witness_DmaCopiesEveryByte :
    (let w : ItemWork := .dma (L 0x100) (L 0x140) 64 0; let it : Item := ⟨2, 0, 1#32, 0#32, 0x42, w, .waiting⟩; let s := offering up w;
        s.offered 5 = some (⟨5, 0, false, [it]⟩, it) ∧ 1 < s.fuses.part.x ∧ s.job? 1 3 = none ∧ (s.dma[7]?).isSome = true
          ∧ ¬ (L 0x100 < L 0x140 + 64 ∧ L 0x140 < L 0x100 + 64) ∧ Clean s
          ∧ Maps s .device .read (L 0x100) 64 .loc 0x100 ∧ Maps s .device .write (L 0x140) 64 .loc 0x140 ∧ 0x100 + 64 ≤ 0x140)
      ∧ (let w : ItemWork := .dma (L 0x100) (L 0x13F) 64 0; let it : Item := ⟨2, 0, 1#32, 0#32, 0x42, w, .waiting⟩;
        (offering up w).offered 5 = some (⟨5, 0, false, [it]⟩, it) ∧ L 0x100 < L 0x13F + 64 ∧ L 0x13F < L 0x100 + 64)
      ∧ let j : DmaJob := { job with progress := L 0x200, waiting := none, ended := some ⟨0, 0⟩ };
        let s := { up with dma := up.dma.modify 3 fun _ => some j };
        s.job? 0 3 = some j ∧ Clean s ∧ Lands s .device .write j.progress 32 .loc 0x200 := by
  unfold Clean Maps Lands; and_intros <;> decide +kernel

/-! Routing: layer 3, two experts, one token. -/

def routeDesc (mode batch : Nat) : List Byte :=
  words [(0, 4 + 16 * mode + 10 * 64), (4, 3 + 65536 * batch), (8, 1), (0x10, 0x1300), (0x14, H), (0x18, 8), (0x20, 0x1400), (0x24, H), (0x28, 0x1500), (0x2C, H)]

def router (hold : List Work) (q : List Work) (table : List FlowEntry) (free : Nat) : State :=
  { up with
    routers := up.routers.modify 0 fun _ => ⟨q, hold, none⟩
    routing := { up.routing with layers := [(3, routeRec 1 0)], table := table, free := free } }

def entry (k : Nat) : FlowEntry := ⟨State.reset.flowHome (RouteDesc.of (routeDesc 0 0)) 0, 3, 0, 0, 0, [0#32, 0#32, 0#32, 0#32], false, k, 0⟩

theorem witness_RoutesRunWaitOrAreRefused_arrays :
    RouteReaches (router [] [work (routeDesc 0 0)] [] 1) (RouteDesc.of (routeDesc 0 0)) (LayerRec.of (routeRec 1 0)) := by
  refine ⟨fun i hi => ?_, fun h => absurd (by decide +kernel) h, fun h => absurd (by decide +kernel) h, fun p hp => ?_⟩
  · have h1 : i < 1 := hi
    obtain rfl : i = 0 := by omega
    exact reachable_local _ _ _ (by decide +kernel)
  · have h : ∀ p ∈ routeOutputs (RouteDesc.of (routeDesc 0 0)) (LayerRec.of (routeRec 1 0)), ∀ i, i < p.2 - p.1 →
        (router [] [work (routeDesc 0 0)] [] 1).translateSpan .device .write (p.1 + i) 1 = .ok [(.mem .loc (p.1 + i - localBase), 1)] := by
      decide +kernel
    exact reachable_local _ _ _ (h p hp)

theorem witness_RoutesRunWaitOrAreRefused :
    let w := work (routeDesc 0 0)
    let w1 := work (routeDesc 0 1)
    let x := RouteDesc.of (routeDesc 0 0)
    let s := router [] [w] [] 1
    s.router? 0 = some ⟨[w], [], none⟩ ∧ s.enginesRun = true ∧ s.mayStart w = true ∧ routeBad w.desc (s.expertsOf w.desc) = none ∧ x.mode = 0
      ∧ s.layerRecord x.layer = some (routeRec 1 0) ∧ (router [] [w] [entry 1] 1).flowExists x = true ∧ s.flowExists x = false
      ∧ (router [] [w1] [] 1).flowExists (RouteDesc.of w1.desc) = false ∧ (router [] [w1] [] 1).mustWait (RouteDesc.of w1.desc) = true
      ∧ routeBad w1.desc (s.expertsOf w1.desc) = none ∧ (router (List.replicate 16 w) [w1] [] 1).router? 0 = some ⟨[w1], List.replicate 16 w, none⟩
      ∧ s.mustWait x = false ∧ (router [] [w] [] 0).routing.free < x.tokens ∧ x.tokens ≤ s.routing.free ∧ FlowRoom s
      ∧ s.routing.spillEntries = 0 ∧ Clean s ∧ layerBad s.fuses.part (routeRec 1 0) = false ∧ (LayerRec.of (routeRec 1 0)).experts ≠ 0
      ∧ (router [w] [] [] 1).router? 0 = some ⟨[], [w], none⟩ := by
  unfold Clean FlowRoom; and_intros <;> decide +kernel

theorem witness_RecallsReadAndReleasesFree :
    (∀ m ∈ [1, 2],
        let w := work (routeDesc m 0)
        let s := router [] [w] [] 1
        s.router? 0 = some ⟨[w], [], none⟩ ∧ s.enginesRun = true ∧ s.mayStart w = true ∧ routeBad w.desc (s.expertsOf w.desc) = none
          ∧ (RouteDesc.of w.desc).mode = m ∧ s.layerRecord (RouteDesc.of w.desc).layer = some (routeRec 1 0))
      ∧ (let w := work (routeDesc 1 0); let s := router [] [w] [entry 1] 1; let x := RouteDesc.of w.desc;
        TableSound s x ∧ (s.entryOf x 0).isSome = true ∧ Clean s ∧ (LayerRec.of (routeRec 1 0)).k ≠ 0
          ∧ (∀ f ∈ s.routing.table, f.layer = x.layer → f.k = (LayerRec.of (routeRec 1 0)).k)
          ∧ Maps s .device .write x.combine (4 * (x.tokens * (LayerRec.of (routeRec 1 0)).k)) .loc 0x1400) := by
  refine ⟨by decide +kernel, ⟨by decide +kernel, by decide +kernel, by decide +kernel, fun f hf g hg _ _ _ =>
    (List.mem_singleton.1 hf).trans (List.mem_singleton.1 hg).symm⟩, by decide +kernel, by unfold Clean; decide +kernel, by decide +kernel,
    by decide +kernel, by unfold Maps Lands; decide +kernel⟩

/-! Collectives and updates -/

theorem no_reduces (s : State) (h : s.consorts.flatMap ConsortEngine.begun = []) (h' : s.coll.held = []) : Quiet s := by
  refine ⟨?_, h'⟩
  simp [State.reduces, h]

theorem one_reduce (s : State) (op : ReduceOp) (h : s.consorts.flatMap ConsortEngine.begun = [op]) : s.reduces = [op] := by
  simp [State.reduces, h]

/-- Group 0 of two members, ranks 0 and 1; this device is member me. -/
def group2 (me : Nat) : Group :=
  ⟨0, 1, leBytes 4 2 ++ zeros 12 ++ leBytes 4 0 ++ leBytes 4 1, [(0, 0), (1, 0)], me, 100, some [layerRec], 0, 0, [], false, []⟩

def reducing (g : Group) (d : List Byte) : State :=
  { mapped with coll := { up.coll with groups := [g] }, consorts := up.consorts.modify 0 fun _ => ⟨[work d], none, []⟩ }

def gradientDesc : List Byte := words [(0, 6)]
def statsDesc : List Byte := words [(0, 6 + 16), (8, 1), (0x20, 0x500), (0x30, 0x600)]

theorem witness_ReductionsCompressAndSend :
    let s := reducing group1 gradientDesc
    let g := { group1 with seen := 8 }
    let l := g.layer 0
    s.consort? 0 = some ⟨[work gradientDesc], none, []⟩ ∧ s.enginesRun = true ∧ s.mayStart (work gradientDesc) = true ∧ Quiet s ∧ Clean s
      ∧ reduceBad s.fuses.part gradientDesc = none ∧ (ReduceDesc.of gradientDesc).stats = false ∧ (s.arrivals 0).group? 0 = some g ∧ g.layout ≠ none ∧ g.failed = false
      ∧ (work gradientDesc).uid ∉ g.late
      ∧ (let h := { group1 with seen := 8, late := [7] }; let s := reducing h gradientDesc;
        (s.arrivals 0).group? 0 = some h ∧ (work gradientDesc).uid ∈ h.late ∧ RecordFits s (ReduceDesc.of gradientDesc).status 64)
      ∧ (∃ c ∈ s.consorts, work gradientDesc ∈ c.queue)
      ∧ (∀ c ∈ s.consorts, ∀ v ∈ c.queue, v = work gradientDesc ∨ reducesGroup group1.num v.desc = false) ∧ s.group? group1.num = some group1
      ∧ reducesGroup group1.num gradientDesc = true ∧ group1.seen ≤ (work gradientDesc).uid
      ∧ (ReduceDesc.of gradientDesc).index = group1.nextIndex ∧ (ReduceDesc.of gradientDesc).index ≠ { group1 with nextIndex := 1 }.nextIndex
      ∧ s.updating l.layer = false ∧ (ReduceDesc.of gradientDesc).trigger = 0
      ∧ 0 < l.elements ∧ 0 < l.perBucket ∧ Maps s .device .read l.grad (l.elements * l.gradBytes) .near 0x100
      ∧ Maps s .device .read l.err (4 * l.elements) .near 0x200 ∧ Maps s .device .write l.err (4 * l.elements) .near 0x200
      ∧ Reachable s .read (l.cbuf, l.cbuf + l.buckets * l.slot) ∧ Reachable s .write (l.cbuf, l.cbuf + l.buckets * l.slot)
      ∧ (∀ me ∈ [0, 1], let s := reducing (group2 me) statsDesc;
        s.consort? 0 = some ⟨[work statsDesc], none, []⟩ ∧ s.mayStart (work statsDesc) = true ∧ Clean s ∧ reduceBad s.fuses.part statsDesc = none
          ∧ (ReduceDesc.of statsDesc).stats = true ∧ s.group? 0 = some (group2 me) ∧ (ReduceDesc.of statsDesc).trigger = 0
          ∧ Maps s .device .read (ReduceDesc.of statsDesc).src 32 .near 0x500 ∧ (group2 me).spent 0 + 32 * 1 ≤ (group2 me).window
          ∧ s.coll.gathers = [] ∧ s.groupOfCrc (group2 me).crc = some (group2 me)
          ∧ Maps s .device .write (ReduceDesc.of statsDesc).stage 32 .near 0x600)
      ∧ ∀ me, Quiet (reducing (group2 me) statsDesc) := by
  unfold Clean Maps Lands
  and_intros <;> first
    | decide +kernel
    | exact no_reduces _ (by decide +kernel) rfl
    | exact fun me => no_reduces _ rfl rfl
    | exact reachable_near _ _ _ (by decide +kernel)
    | exact Or.inl (by decide +kernel)

/-- The one bucket of a group has come whole from a member. -/
def bucketBytes (g : Group) : List Byte := zeros 4 ++ leBytes 4 g.crc.toNat ++ leBytes 4 (layoutCrc (g.layout.getD [])) ++ zeros (20 + 40)

def inbound (g : Group) (src : Nat) (refused : List (Nat × Nat)) (ps : List PortBurst) : State :=
  { mapped with coll := { up.coll with groups := [g], inbound := [⟨g.crc, src, 0, 0#32, bucketBytes g, 0⟩], refused := refused, portBursts := ps } }

/-- A layer of two buckets. -/
def layerRec2 : List Byte := words [(0, 4), (8, 257), (0x10, 1), (0x18, 0x100), (0x20, 0x200), (0x28, 0x1000), (0x30, 0x400)] 16

/-- The burst that member src of a group offers next, where its port has none of it yet. -/
def nextBurst (s : State) (g : Group) (b : InBucket) (l : LayerLayout) (round : Nat) : PortBurst :=
  let port := s.portOf l 0 b.admitted
  ⟨port.1, port.2, g.num, round, b.bucket, b.admitted, [], none⟩

/-- A contribution of member 0. -/
def someBits : Contribution := ⟨0, 0#32, 0#32, 0#16, 0#16, false, false⟩

/-- Burst 1 of a bucket has come for the 33rd time, while the other member's has not come once. -/
def group4 : Group := { group2 0 with layout := some [layerRec2] }
def crowdedPort : State :=
  let s := { mapped with coll := { up.coll with
    groups := [group4], inbound := [⟨group4.crc, 0, 0, 0#32, bucketBytes group4, 1⟩], refused := [] } }
  let p := s.portOf (group4.layer 0) 0 1
  { s with coll := { s.coll with portBursts := (List.range 32).map fun k => ⟨p.1, p.2, 0, k, 0, 1, [someBits], none⟩ } }

theorem witness_BurstsAreSummedAtTheirPort :
    (∀ r ∈ [[], [(0, 0)]], let s := inbound group1 0 r []; let b : InBucket := ⟨group1.crc, 0, 0, 0#32, bucketBytes group1, 0⟩; let l := group1.layer 0;
        s.group? 0 = some group1 ∧ group1.failed = false ∧ (s.coll.inbound.find? fun b => b.crc == group1.crc && b.src == group1.rankOf 0) = some b
          ∧ b.bucket % group1.size = group1.me ∧ b.admitted < l.burstsIn 0 ∧ (Group.own? s group1 0).rounds = 0 ∧ s.portBurst? 0 0 0 0 = none
          ∧ (b.contribution group1 0 (l.blocksIn 0) 0).map (fun c => (s.admits group1 (nextBurst s group1 b l 0) c, c.aborted)) = some (true, false)
          ∧ s.coll.refused.contains (0, 0) = !r.isEmpty ∧ (nextBurst s group1 b l 0).got.length + 1 = group1.size
          ∧ Maps s .device .atomic (l.burstVa 0 0) (min 16 (l.elementsIn 0 - 16 * 0) * l.resBytes) .near 0x300
          ∧ l.burstsIn 0 = 1 ∧ Clean s ∧ (Group.own? s group1 0).aborted = false ∧ (Group.own? s group1 0).written = [])
      ∧ group1.find 0 = some (0, group1.layer 0, 0) ∧ (group1.layer 0).xdie = 0 ∧ Quiet (inbound group1 0 [] [])
      ∧ (let p : PortBurst := ⟨0, 0, 0, 0, 0, 0, [someBits], none⟩; let s := inbound (group2 0) 0 [] [p];
        let b : InBucket := ⟨(group2 0).crc, 0, 0, 0#32, bucketBytes (group2 0), 0⟩; let l := (group2 0).layer 0;
        (s.portBurst? 0 0 0 0) = some p ∧ (p.got.any fun q => q.source == 0) = true ∧ s.portBurst? 0 1 0 0 = none
          ∧ (b.contribution (group2 0) 0 (l.blocksIn 0) 0).map (fun c => (s.admits (group2 0) (nextBurst s (group2 0) b l 1) c, c.aborted)) = some (true, false)
          ∧ (nextBurst s (group2 0) b l 1).got.length + 1 < (group2 0).size
          ∧ s.group? 0 = some (group2 0) ∧ (group2 0).timeoutMs ≠ 0 ∧ (group2 0).failed = false ∧ s.groupWaits (group2 0) = true)
      ∧ (let b : InBucket := ⟨group4.crc, 0, 0, 0#32, bucketBytes group4, 1⟩; let l := group4.layer 0;
        (crowdedPort.coll.inbound.find? fun b => b.crc == group4.crc && b.src == group4.rankOf 0) = some b ∧ group4.find 0 = some (0, l, 0)
          ∧ 1 < l.burstsIn 0 ∧ crowdedPort.portBurst? 0 32 0 1 = none
          ∧ (b.contribution group4 0 (l.blocksIn 0) 1).map (fun c => crowdedPort.admits group4 (nextBurst crowdedPort group4 b l 32) c) = some false) := by
  unfold Clean Maps Lands
  and_intros <;> first
    | decide +kernel
    | exact no_reduces (inbound group1 0 [] []) (by decide +kernel) rfl
    | rfl

/-- A frame for rank 1 with these ARG0 and TAG. -/
def frameIn (type : Nat) (arg0 : Nat) (tag arg1 : Nat) (pl : List Byte) : Frame :=
  sealed ⟨type, 0, 3, 1, 0, 1, 0, 0#32, BitVec.ofNat 64 arg0, BitVec.ofNat 32 tag, BitVec.ofNat 32 arg1, pl, 0#32, true⟩

theorem for_rank (s : State) (f : Frame) (type : Nat) (h : s.port? 0 = some upPort) (ha : upPort.accepts f = true)
    (ht : s.ww.fabric.turn f.dst = none ∧ s.ww.fabric.reaches f.dst = true) (hf : f.type = type) : ForThisRank s 0 f type :=
  ⟨⟨upPort, h, rfl, ha⟩, ht.1, ht.2, hf⟩

/-- A REDUCE of a group that waits for its results, on a device with Windway. -/
def waitingFor (g : Group) (op : ReduceOp) : State :=
  { wind upPort with
    tr := { up.tr with leaves := [leaf0] }
    coll := { up.coll with groups := [g] }
    consorts := up.consorts.modify 0 fun _ => ⟨[], none, [op]⟩ }

def waitsGradient : ReduceOp := { newReduce (work gradientDesc) with begun := true }
def waitsStats : ReduceOp := { newReduce (work (words [(0, 6 + 16), (8, 2), (0x28, 0x700)])) with begun := true }

def group3 : Group := { group2 1 with layout := some [layerRec2] }

theorem witness_CollectiveFramesAreTakenIn :
    ForThisRank (wind upPort) 0 (frameIn 5 0 0 0 (zeros 8)) 5 ∧ (frameIn 5 0 0 0 (zeros 8)).tag = 0#32
      ∧ (let f := frameIn 5 0 8 0 (zeros 8); let b : InBucket := ⟨f.low, f.src, f.high.toNat, 0#32, zeros 8, 0⟩;
        ForThisRank (wind upPort) 0 f 5 ∧ f.tag ≠ 0#32 ∧ b.bytes.length = f.tag.toNat)
      ∧ (let s := { wind upPort with coll := { up.coll with groups := [group2 1] } }; let f := frameIn 6 (group2 1).crc.toNat 0 64 [];
        ForThisRank s 0 f 6 ∧ Quiet s ∧ s.groupOfCrc f.low = some (group2 1) ∧ s.group? 0 = some (group2 1) ∧ (group2 1).rank? f.src = some 0)
      ∧ (∀ k ∈ [7, 8, 9], ForThisRank (wind upPort) 0 (frameIn k 0 0 0 (zeros 16)) k)
      ∧ (let s := waitingFor group3 waitsGradient; let f := frameIn 7 (group3.crc.toNat + 2 ^ 32) 0 0 (zeros 24); let l := group3.layer 0;
        s.reduces = [waitsGradient] ∧ s.groupOfCrc f.low = some group3 ∧ s.group? 0 = some group3 ∧ Clean s ∧ ForThisRank s 0 f 7
          ∧ f.tag = 0#32 ∧ f.high.toNat = 1 ∧ group3.find 1 = some (0, l, 1) ∧ field (get16 f.payload 6) 3 2 = 0 ∧ l.elementsIn 1 * l.resBytes + 16 ≤ f.payload.length
          ∧ 0 < l.elementsIn 1 * l.resBytes ∧ waitsGradient.arrived.length + 1 < l.buckets
          ∧ Maps s .device .write (l.sum + 1 * 256 * l.perBucket * l.resBytes) (l.elementsIn 1 * l.resBytes) .near 0x1400)
      ∧ (let s := waitingFor (group2 1) waitsStats; let f := frameIn 9 (group2 1).crc.toNat 0 0 (zeros 16); let d := ReduceDesc.of waitsStats.work.desc;
        s.reduces = [waitsStats] ∧ waitsStats.stats = true ∧ ForThisRank s 0 f 9 ∧ f.high.toNat % 16 = 0
          ∧ waitsStats.arrived.length + f.payload.length / 16 < d.index ∧ Maps s .device .write (d.dst + 16 * f.tag.toNat) f.payload.length .near 0x700) := by
  unfold Clean Maps Lands
  and_intros
  all_goals first
    | decide +kernel
    | rfl
    | exact no_reduces _ (by decide +kernel) rfl
    | exact one_reduce _ _ (by decide +kernel)
    | skip
  intro k hk
  have h : upPort.accepts (frameIn k 0 0 0 (zeros 16)) = true := by revert k; decide +kernel
  exact for_rank _ _ _ (by decide +kernel) h (by change row3.turn 1 = none ∧ row3.reaches 1 = true; decide +kernel) rfl

/-- An update of layer 4 of group 0 that waits to start. -/
def update1 : UpdateOp where
  layer := 4
  group := 0
  carrel := 0
  layout := layerRec
  step := 1#32
  reduce := ⟨0, 0⟩
  flags := 0
  started := false
  bank := false
  pass := 1
  next := 0
  ahead := []
  partials := []
  trust := 0#32
  scale := 0#32
  counts := Counts.zero
  updated := 0
  frozen := 0
  untouched := 0
  nonfinite := 0
  flips := 0
  granules := 0
  stopped := []
  ended := none
  recorded := false
  signalled := false

def updating (sched : List Byte) (op : UpdateOp) : State := { grouped with update := ⟨[⟨4, sched, 0#32⟩], [], [op]⟩ }

/-- SGD over L16 parameters at 0x1000 and its momentum at 0x2000; LAMB; an entry whose parameters are the layer's own results. -/
def lambSchedule : List Byte := words [(0, 0x82 + 8 * 10), (4, 4), (0xC, 1), (0x30, 0x1000), (0x38, 0x2000)] 32
def overlapSchedule : List Byte := words [(0, 0x80 + 8 * 10), (4, 4), (0xC, 1), (0x30, 0x0), (0x38, 0x300)] 32

def arraysOf (d : List Byte) : List (Nat × Nat) := ((Schedule.of d).arrays 16).map fun a => (a.2.2.1, a.2.2.1 + a.2.2.2)

theorem reachable_arrays (s : State) (d : List Byte)
    (h : ∀ p ∈ arraysOf d, ∀ i, i < p.2 - p.1 → s.translateSpan .device .atomic (p.1 + i) 1 = .ok [(.mem .near (p.1 + i), 1)]) :
    ∀ r ∈ arraysOf d, Reachable s .atomic r := fun r hr => reachable_near _ _ _ (h r hr)

theorem witness_UpdatesRunAndEnd :
    (let s := updating schedule1 update1; let l := LayerLayout.of layerRec;
        s.update? 4 = some update1 ∧ s.schedule? 4 = some ⟨4, schedule1, 0#32⟩ ∧ s.enginesRun = true ∧ s.layoutOf 0 4 = some l
          ∧ s.scheduleBad schedule1 4 l = none ∧ update1.skips ⟨4, schedule1, 0#32⟩ = none ∧ s.updateOverlaps 4 (Schedule.of schedule1) l = false
          ∧ Clean s ∧ (Schedule.of schedule1).twoPass = false ∧ (∀ r ∈ arraysOf schedule1, Reachable s .atomic r)
          ∧ Reachable s .atomic (l.sum, l.sum + 16 * l.resBytes) ∧ s.carrelFull update1.carrel = false)
      ∧ (crowded 65536 (updating schedule1 update1)).carrelFull update1.carrel = true
      ∧ { update1 with flags := 1 }.skips ⟨4, schedule1, 0#32⟩ = some ⟨0x0150, 0⟩
      ∧ (let s := updating overlapSchedule update1; s.scheduleBad overlapSchedule 4 (LayerLayout.of layerRec) = none
        ∧ update1.skips ⟨4, overlapSchedule, 0#32⟩ = none ∧ s.updateOverlaps 4 (Schedule.of overlapSchedule) (LayerLayout.of layerRec) = true)
      ∧ (let op := { update1 with started := true, next := 1 }; let s := updating lambSchedule op;
        s.update? 4 = some op ∧ s.scheduleBad lambSchedule 4 (LayerLayout.of layerRec) = none ∧ (Schedule.of lambSchedule).rule = 2
          ∧ (Schedule.of lambSchedule).granules 16 ≤ op.next ∧ Clean s ∧ LayerLayout.of op.layout = LayerLayout.of layerRec ∧ ∀ r ∈ arraysOf lambSchedule, Reachable s .atomic r)
      ∧ (let op := { update1 with started := true, ended := some ⟨0, 0⟩ };
        let d := words [(0, 0x80 + 16 * 5), (4, 4), (0xC, 1), (0x30, 0x1000), (0x38, 0x2000), (0x60, 0x3000)] 32; let s := updating d op;
        s.schedule? 4 = some ⟨4, d, 0#32⟩ ∧ s.update.ops = [op] ∧ Clean s ∧ RecordFits s (Schedule.of d).status 96 ∧ (Schedule.of d).done ≠ 0 ∧ isTier .near = true
          ∧ Lands s .device .atomic (Schedule.of d).done 8 .near 0x3000 ∧ (Schedule.of schedule1).done = 0) := by
  unfold Clean
  and_intros <;> first
    | exact crowded_full _ _ (Nat.le_refl _) rfl
    | decide +kernel
    | rfl
    | exact reachable_arrays _ _ (by decide +kernel)
    | exact reachable_near _ _ _ (by decide +kernel)
    | exact Or.inl (by decide +kernel)

/-! ## Worked cases of the manual -/

/-- 'encoding single values': 3.0, -0.25, 0.003, 100.0. -/
theorem test_encode_single_values :
    [encodeNum none fL8 0 rne 0 0 (numOfRat 3), encodeNum none fL16 0 rne 0 0 (numOfRat 3), encodeNum none fL5 0 rne 0 0 (numOfRat (-1 / 4)),
      encodeNum none fL16 0 rne 0 0 (numOfRat (-1 / 4)), encodeNum none fLF32 0 rne 0 0 (numOfRat (-1 / 4)),
      encodeNum none fL8 0 rne 0 0 (numOfRat (3 / 1000)), encodeNum none fL16 0 rne 0 0 (lf32 0x42C80000)].map (fun p => p.1)
      = [0x0D, 0x0196, 0x1C, 0xFE00, 0xBE800000, 0x42, 0x06A5]
    ∧ encodeNum none fL8 0 rne 1 0 (numOfRat (3 / 1000)) = (0x40, .flushed)
    ∧ (encodeNum none fL8 0 stoch 0 11286 (numOfRat (3 / 1000))).1 = 0x43 ∧ (encodeNum none fL8 0 stoch 0 11287 (numOfRat (3 / 1000))).1 = 0x42 := by
  decide +kernel

/-- The two narrowings that show the tie rule. -/
theorem test_encode_narrowing_ties :
    (encodeNum none fL8 0 rne 0 0 (decodeNum fL16 0x0194 0 0).1).1 = 0x0D ∧ (encodeNum none fL8 0 rne 0 0 (decodeNum fL16 0x0190 0 0).1).1 = 0x0C := by
  decide +kernel

/-- 'a running sum near 2^24': the pair after each group. -/
theorem test_pair_running_sum :
    [(0x4B800000#32, 0#32), (0x4B800000#32, 0x3F800000#32), (0x4B800001#32, 0#32)].map (fun p => ((pairStep 1 p.1 p.2 (numOfRat 1)).1, (pairStep 1 p.1 p.2 (numOfRat 1)).2.1))
      = [(0x4B800000#32, 0x3F800000#32), (0x4B800001#32, 0#32), (0x4B800002#32, 0xBF800000#32)] := by decide +kernel

/-- 'placing one near-tier offset': channel and channel address of offset 0x12_3456_7890 on 18 stacks. -/
theorem test_shelving_place : (shelve 18 0 0x1234567890).2 = (2, 0x205D0B90) := by decide +kernel

/-- 'one element from four members': the new errors of three elements, and SCALE_LOG2 -2. -/
theorem test_new_errors :
    [carryOut 0x3E200000 0x3E800000, carryOut 0x3E200000 0xBD000000, carryOut 0x3E200000 0x7FC00000] = [0x3DC00000, 0x3E000000, 0x7FC00000]
      ∧ carryIn none fLF32 0x3EC00000 0xBE000000 = 0x3E800000 := by decide +kernel

/-- 'reading PRB-C6X2N18D12' and 'walking PRB-C4X2N12D8': P_max 1,276 W, 13 Spine links. -/
theorem test_part_counts : Part.pmax ⟨4, 2, 12, 8, rfl⟩ = 1276 ∧ (Part.linkRows ⟨4, 2, 12, 8, rfl⟩).length = 13 ∧ Part.links ⟨4, 2, 12, 8, rfl⟩ = 13 := by
  decide +kernel

/-- The SMBus read of POWER_W: its PEC is 0x9B. -/
theorem test_smbus_pec : pec [0x94#8, 0x02#8, 0x95#8, 0xFD#8, 0x03#8] = 0x9B := by decide +kernel

/-- 'reading device memory through BAR2': the window's base and the address of offset 0x3456_7890. -/
theorem test_bar2_address :
    (match execRegisterWrite 0x200014 ⟨leBytes 4 0x00010012, plainTlp⟩ up with
      | .next s => (match execBar2BaseLo 0xC0000001#32 s with
        | .next t => (t.bar2Address 0x34567890, t.bar2Open)
        | _ => (0, false))
      | _ => (0, false)) = (0x00010012F4567890, true) := by decide +kernel

def meshFabric : Fabric := ⟨35, 1#32, 0xFF#32, 0#16, 0xFF#16, 0x11#16, 0x22#16, 0x44#16, 0x88#16, 0#16, 0#16⟩

/-- 'one remote read across a mesh': rank 35 sends to rank 74 by port 5, with HOPS 30 and these header words. -/
theorem test_mesh_route :
    meshFabric.route 35 74 = some 5 ∧ ({ meshFabric with rank := 42 }).route 35 74 = some 7 ∧ meshFabric.valid ⟨4, 2, 16, 8, rfl⟩ = true
      ∧ (let f : Frame := ⟨1, 0, 30, 74, 35, 0, 0, 0#32, 0x0000012345678000#64, 0#32, 256#32, [], 0#32, true⟩;
        get32 f.header 0 = 0x004A1E01 ∧ get32 f.header 4 = 0x23 ∧ get32 f.header 0x10 = 0x45678000 ∧ get32 f.header 0x14 = 0x123
          ∧ get32 f.header 0x1C = 0x100) := by decide +kernel

/-- CRC-32 of IEEE 802.3 over "123456789" is 0xCBF43926 (the check value of the polynomial). -/
theorem test_crc32 : crc32 [0x31#8, 0x32, 0x33, 0x34, 0x35, 0x36, 0x37, 0x38, 0x39] = 0xCBF43926 := by decide +kernel

/-- SHA-384 of the empty message begins 38B060A7 51AC9638 (FIPS 180-4). -/
theorem test_sha384 : (sha384 []).take 8 = [0x38#8, 0xB0, 0x60, 0xA7, 0x51, 0xAC, 0x96, 0x38] := by decide +kernel

/-- 'PRB-C4X1N16D8': a load from C-die 1 to C-die 2 runs along row 1 to C-die 3 and then crosses the column. -/
theorem test_spine_path :
    Part.spinePath ⟨4, 1, 16, 8, rfl⟩ (.c, 1) (.c, 2) = [(1, 0), (3, 1)]
      ∧ (Part.spinePath ⟨4, 1, 16, 8, rfl⟩ (.c, 3) (.d, 0)).length = 2 := by decide +kernel

/-- 'walking PRB-C4X2N12D8': physical cluster 7 of C-die 2 fused off; the CLUSTER entry of INSTANCE 38. -/
theorem test_cluster_entry :
    ((clusterEntries (fusedPhysical { Fuses.sample with badClusters := [(2, 7)] }))[38]?.map fun e => (e.bytes.take 16).map BitVec.toNat)
      = some ([0x00180020, 0x00010026, 0x01110602, 0x00001040].flatMap fun w => (leBytes 4 w).map BitVec.toNat) := by decide +kernel

end Sys2Proof.Tests
end

/-! ## What lasts until a reset of the whole part (R14, R540, R542) -/

section

open Sys2Proof Sys2Proof.Machine

/-- The seals, set in one state and still set in another: the LOCK bits, DEBUG_EVER and INJECT_EVER. -/
structure SealsKept (s t : State) : Prop where
  lock : ∀ i, s.bar0.lock.getLsbD i = true → t.bar0.lock.getLsbD i = true
  debugEver : s.fw.debugEver = true → t.fw.debugEver = true
  injectEver : s.fw.injectEver = true → t.fw.injectEver = true

/-- `latched` joins the old seals to the new ones, whatever the state in between has made of them. -/
theorem sealsKept_latched (s u : State) : SealsKept s (s.latched u) where
  lock i hi := by simp [hi]
  debugEver h := by simp [h]
  injectEver h := by simp [h]

theorem sealsKept_of_after_next {s t : State} {o : Host.Outcome State Fault Refusal} (h : s.after o = .next t) :
    SealsKept s t := by
  obtain ⟨u, -, rfl⟩ := (s.after_next t o).mp h
  exact sealsKept_latched s (s.fixed u)

/-- Only the five resets, and a register write that reaches RESET_CTRL, have a meaning that is not under `after`. -/
theorem exec_eq_after {c : Instr} (s : State) (hc : mayReset c = false) : ∃ o, exec c s = s.after o := by
  cases c
  case powerOn | vinLoss | perst | coldReset | deviceReset => cases hc
  case registerWrite off data =>
    have hoff : ¬ reachesReset off data.what.length = true := Bool.eq_false_iff.mp hc
    exact ⟨_, if_neg hoff⟩
  all_goals
    simp only [exec]
    exact ⟨_, rfl⟩

theorem exec_sealsKept {c : Instr} {s t : State} (hc : mayReset c = false) (h : exec c s = .next t) : SealsKept s t := by
  obtain ⟨o, ho⟩ := exec_eq_after s hc
  exact sealsKept_of_after_next (ho.symm.trans h)

/-- A step is its front command run on the state with the queue's rest (log 6). -/
theorem step_of_pending_cons {s : State} {c : Instr} {rest : List Instr} (h : s.pending = c :: rest) :
    step s = exec c { s with pending := rest } := by
  simp only [step, h]

/-- Settles O3: a command that is no reset answers through `after`, which puts back every seal that was set. -/
theorem sealsLastUntilAReset : Obligations.SealsLastUntilAReset := by
  intro s t c rest hpending hc hstep
  rw [step_of_pending_cons hpending] at hstep
  obtain ⟨hlock, hdebug, hinject⟩ := exec_sealsKept hc hstep
  exact ⟨hlock, hdebug, hinject⟩

end

/-! ## Accesses met byte by byte (R348, R381) -/

section

namespace Sys2Proof.Machine

/-! ### One translation -/

/-- R352: a lookup that leads to memory reads the fuses and the page tables alone. -/
theorem State.lookup_mem_of_agree {s t : State} {va : Nat} {sp : Space} {o perm : Nat} (hf : t.fuses = s.fuses) (ht : t.tr = s.tr)
    (h : s.lookup va = some (.mem sp o, perm)) : t.lookup va = some (.mem sp o, perm) := by
  unfold State.lookup at h ⊢
  rw [hf, ht]
  split at h
  next hloc => rwa [if_pos hloc]
  next hloc =>
    rw [if_neg hloc]
    split at h
    next hflow => split at h <;> simp at h
    next hflow =>
      rw [if_neg hflow]
      split at h
      next hctr => split at h <;> simp at h
      next hctr => rwa [if_neg hctr]

/-- A clean near tier has no uncorrectable error in a table page. -/
theorem State.walkBad_clean {s : State} (h : Clean s) (va : Nat) : s.walkBad va = false := by
  obtain ⟨hnear, -⟩ := h
  simp [State.walkBad, hnear]

/-- R352: an access that leads to memory lies within the address space, at an address that leads there and may be accessed so. -/
theorem State.translate_mem_iff {s : State} (hs : Clean s) {who : Origin} {acc : Acc} {va n : Nat} {sp : Space} {o : Nat} :
    s.translate who acc va n = .ok (.mem sp o)
      ↔ va < 2 ^ 57 ∧ va + n ≤ 2 ^ 57
        ∧ ∃ perm, s.lookup va = some (.mem sp o, perm) ∧ kindAllows (.mem sp o) acc = true ∧ granted perm acc who = true := by
  unfold State.translate
  rw [State.walkBad_clean hs]
  by_cases hr : va < 2 ^ 57 ∧ va + n ≤ 2 ^ 57
  · have hr' : (decide (2 ^ 57 ≤ va) || decide (2 ^ 57 < va + n)) = false := by simpa using hr
    rw [hr', and_iff_right hr.1, and_iff_right hr.2]
    rcases hl : s.lookup va with _ | ⟨t, perm⟩
    · simp
    · by_cases ht : t = .mem sp o
      · subst ht
        cases hk : kindAllows (.mem sp o) acc <;> cases hg : granted perm acc who <;> simp [hk, hg]
      · simp only [Option.some.injEq, Prod.mk.injEq, ht, false_and, exists_false, iff_false]
        split_ifs <;> simp [ht]
  · have hr' : (decide (2 ^ 57 ≤ va) || decide (2 ^ 57 < va + n)) = true := by simp; omega
    rw [hr']
    simp
    omega

theorem State.translate_mem_of_agree {s t : State} (hs : Clean s) (hc : Clean t) (hf : t.fuses = s.fuses) (ht : t.tr = s.tr)
    {who : Origin} {acc : Acc} {va n : Nat} {sp : Space} {o : Nat} (h : s.translate who acc va n = .ok (.mem sp o)) :
    t.translate who acc va n = .ok (.mem sp o) := by
  obtain ⟨hva, hn, perm, hl, hk, hg⟩ := (State.translate_mem_iff hs).mp h
  exact (State.translate_mem_iff hc).mpr ⟨hva, hn, perm, State.lookup_mem_of_agree hf ht hl, hk, hg⟩

theorem lands_one_iff {s : State} {who : Origin} {acc : Acc} {va : Nat} {sp : Space} {o : Nat} :
    Lands s who acc va 1 sp o ↔ va + 1 ≤ 2 ^ 57 ∧ s.translate who acc va 1 = .ok (.mem sp o) := by
  have hk : min 1 (65536 - va % 65536) = 1 := by omega
  have hcut : cutPages (1 / 65536 + 2) va 1 = [(va, 1)] := by simp [cutPages, hk]
  unfold Lands State.translateSpan
  rw [hcut]
  by_cases hr : 2 ^ 57 < va + 1
  · rw [if_pos hr]
    simp
    omega
  · rw [if_neg hr]
    cases ht : s.translate who acc va 1 <;> simp [State.translateAll, ht]
    omega

/-! ### A span of bytes -/

/-- Pieces of these lengths, laid in one memory one after another. -/
def laid (sp : Space) : Nat → List Nat → List (Target × Nat)
  | _, [] => []
  | o, n :: ns => (.mem sp o, n) :: laid sp (o + n) ns

/-- States that agree in fuses and page tables, and are clean, map memory alike. -/
theorem Maps.of_agree {s t : State} {who : Origin} {acc : Acc} {va n : Nat} {sp : Space} {o : Nat} (h : Maps s who acc va n sp o)
    (hs : Clean s) (hc : Clean t) (hf : t.fuses = s.fuses) (ht : t.tr = s.tr) : Maps t who acc va n sp o := by
  intro i hi
  obtain ⟨hr, htr⟩ := lands_one_iff.mp (h i hi)
  exact lands_one_iff.mpr ⟨hr, State.translate_mem_of_agree hs hc hf ht htr⟩

theorem Maps.take {s : State} {who : Origin} {acc : Acc} {va n k : Nat} {sp : Space} {o : Nat} (h : Maps s who acc va n sp o)
    (hk : k ≤ n) : Maps s who acc va k sp o :=
  fun i hi => h i (by omega)

theorem Maps.drop {s : State} {who : Origin} {acc : Acc} {va n : Nat} {sp : Space} {o : Nat} (h : Maps s who acc va n sp o) (k : Nat) :
    Maps s who acc (va + k) (n - k) sp (o + k) := by
  intro i hi
  rw [Nat.add_assoc, Nat.add_assoc]
  exact h (k + i) (by omega)

theorem Maps.within {s : State} {who : Origin} {acc : Acc} {va n : Nat} {sp : Space} {o : Nat} (h : Maps s who acc va n sp o)
    (hn : 0 < n) : va + n ≤ 2 ^ 57 := by
  have hlast := (lands_one_iff.mp (h (n - 1) (by omega))).1
  omega

/-- Bytes met one after another in one memory are met in its pieces, one per page. -/
theorem State.translateAll_maps {s : State} (hs : Clean s) {who : Origin} {acc : Acc} {sp : Space} (fuel : Nat) {va n o : Nat}
    (h : Maps s who acc va n sp o) (hfuel : n = 0 ∨ n + va % 65536 ≤ 65536 * fuel) :
    ∃ ns, s.translateAll who acc (cutPages fuel va n) = .ok (laid sp o ns) ∧ ns.sum = n := by
  induction fuel generalizing va n o with
  | zero => exact ⟨[], rfl, by simp; omega⟩
  | succ fuel ih =>
    by_cases hn : n = 0
    · exact ⟨[], by simp [cutPages, hn, State.translateAll, laid], by simp [hn]⟩
    · obtain ⟨k, hk⟩ : ∃ k, k = min n (65536 - va % 65536) := ⟨_, rfl⟩
      have hva : s.translate who acc va k = .ok (.mem sp o) := by
        obtain ⟨hlt, -, hlook⟩ := (State.translate_mem_iff hs).mp (lands_one_iff.mp (h 0 (by omega))).2
        have hwithin := h.within (by omega)
        exact (State.translate_mem_iff hs).mpr ⟨hlt, by omega, hlook⟩
      obtain ⟨ns, hns, hsum⟩ := ih (h.drop k) (by omega)
      refine ⟨k :: ns, ?_, by simp [hsum]; omega⟩
      simp [cutPages, hn, ← hk, State.translateAll, hva, hns, laid]

theorem State.translateSpan_maps {s : State} (hs : Clean s) {who : Origin} {acc : Acc} {sp : Space} {va n o : Nat} (hn : 0 < n)
    (h : Maps s who acc va n sp o) : ∃ ns, s.translateSpan who acc va n = .ok (laid sp o ns) ∧ ns.sum = n := by
  have hwithin := h.within hn
  unfold State.translateSpan
  rw [if_neg (by omega)]
  exact State.translateAll_maps hs _ h (by omega)

theorem awayOf_laid (sp : Space) (o : Nat) (ns : List Nat) : awayOf (laid sp o ns) = none := by
  induction ns generalizing o with
  | nil => rfl
  | cons n ns ih => simpa [awayOf, laid] using ih (o + n)

theorem inDevice_laid (sp : Space) (o : Nat) (ns : List Nat) : inDevice (laid sp o ns) = true := by
  induction ns generalizing o with
  | nil => rfl
  | cons n ns ih => simpa [inDevice, laid] using ih (o + n)

/-! ### What a write of device memory changes -/

theorem Stored.nil (s : State) (sp : Space) (o : Nat) : Stored s s sp o [] := by
  intro sp' a
  rw [if_neg (by simp)]

/-- Two writes, the second behind the first, store the bytes of both. -/
theorem Stored.append {s t u : State} {sp : Space} {o : Nat} {bs cs : List Byte} (h : Stored s t sp o bs)
    (h' : Stored t u sp (o + bs.length) cs) : Stored s u sp o (bs ++ cs) := by
  intro sp' a
  rw [h' sp' a, h sp' a]
  by_cases hsp : sp' = sp
  · by_cases hlt : a < o + bs.length
    · rw [if_neg (by omega)]
      by_cases ho : o ≤ a
      · rw [if_pos ⟨hsp, ho, hlt⟩, if_pos ⟨hsp, ho, by simp; omega⟩, List.getD_append _ _ _ _ (by omega)]
      · rw [if_neg (by omega), if_neg (by omega)]
    · by_cases hcs : a < o + bs.length + cs.length
      · rw [if_pos ⟨hsp, by omega, hcs⟩, if_pos ⟨hsp, by omega, by simp; omega⟩, List.getD_append_right _ _ _ _ (by omega),
          Nat.sub_add_eq]
      · rw [if_neg (by omega), if_neg (by omega), if_neg (by simp; omega)]
  · simp [hsp]

/-- The bytes bs have been written to clean memory, from offset o of a memory on; nothing else has changed but what writes count. -/
structure BytesWritten (s t : State) (sp : Space) (o : Nat) (bs : List Byte) : Prop where
  counted : ∃ m l mem, t = { s with memStacks := m, spine := l, mem := mem }
  clean : Clean t
  stored : Stored s t sp o bs

theorem BytesWritten.nil {s : State} (hs : Clean s) (sp : Space) (o : Nat) : BytesWritten s s sp o [] :=
  ⟨⟨s.memStacks, s.spine, s.mem, rfl⟩, hs, Stored.nil s sp o⟩

theorem BytesWritten.append {s t u : State} {sp : Space} {o : Nat} {bs cs : List Byte} (h : BytesWritten s t sp o bs)
    (h' : BytesWritten t u sp (o + bs.length) cs) : BytesWritten s u sp o (bs ++ cs) := by
  obtain ⟨m, l, mem, rfl⟩ := h.counted
  obtain ⟨m', l', mem', rfl⟩ := h'.counted
  exact ⟨⟨m', l', mem', rfl⟩, h'.clean, h.stored.append h'.stored⟩

theorem BytesWritten.routing {s t : State} {sp : Space} {o : Nat} {bs : List Byte} (h : BytesWritten s t sp o bs) :
    t.routing = s.routing := by
  obtain ⟨m, l, mem, rfl⟩ := h.counted
  rfl

/-- Writes leave every mapping of memory as it was. -/
theorem BytesWritten.maps {s t : State} {sp sp' : Space} {o o' va n : Nat} {bs : List Byte} {who : Origin} {acc : Acc} (hs : Clean s)
    (hw : BytesWritten s t sp o bs) (h : Maps s who acc va n sp' o') : Maps t who acc va n sp' o' := by
  obtain ⟨m, l, mem, ht⟩ := hw.counted
  exact h.of_agree hs hw.clean (by rw [ht]) (by rw [ht])

theorem State.writeMem_bytesWritten {s : State} (hs : Clean s) (r : Reader) (sp : Space) (o : Nat) (bs : List Byte) :
    BytesWritten s (s.writeMem r sp o bs) sp o bs := by
  obtain ⟨m, l, st, hm, hp, hb⟩ := s.writeMem_clean r sp o bs hs
  rw [hm]
  refine ⟨⟨m, l, s.mem.setStore sp st, rfl⟩, ?_, fun sp' x => ?_⟩
  · obtain ⟨hnear, hdep, hloc, hinj⟩ := hs
    cases sp
    · exact ⟨hp, hdep, hloc, hinj⟩
    · exact ⟨hnear, hp, hloc, hinj⟩
    · exact ⟨hnear, hdep, hp, hinj⟩
  · by_cases hsp : sp' = sp
    · subst hsp
      simp only [State.byteAt, Memory.store_setStore, hb, true_and]
    · simp only [State.byteAt, Memory.store_setStore_ne _ _ _ _ hsp, hsp, false_and, if_false]

theorem State.writePieces_laid {s : State} (hs : Clean s) (r : Reader) (sp : Space) (o : Nat) (ns : List Nat) (bs : List Byte)
    (hn : ns.sum = bs.length) : BytesWritten s (s.writePieces r (laid sp o ns) bs) sp o bs := by
  induction ns generalizing s o bs with
  | nil =>
    obtain rfl : bs = [] := List.eq_nil_of_length_eq_zero hn.symm
    exact BytesWritten.nil hs sp o
  | cons n ns ih =>
    rw [List.sum_cons] at hn
    have hlen : (bs.take n).length = n := by simp; omega
    have hfirst := State.writeMem_bytesWritten hs r sp o (bs.take n)
    have hrest := ih hfirst.clean (o + n) (bs.drop n) (by simp; omega)
    rw [← List.take_append_drop n bs]
    refine hfirst.append ?_
    rw [hlen, List.take_append_drop]
    exact hrest

/-- R381: a write whose bytes are met one after another in one memory stores them there, alone. -/
theorem State.storeAt_maps {s : State} (hs : Clean s) (r : Reader) {va o : Nat} {sp : Space} {bs : List Byte} (hn : 0 < bs.length)
    (h : Maps s .device .write va bs.length sp o) : BytesWritten s (s.storeAt r va bs) sp o bs := by
  obtain ⟨ns, hspan, hsum⟩ := State.translateSpan_maps hs hn h
  simp only [State.storeAt, State.vwrite, hspan, awayOf_laid]
  exact State.writePieces_laid hs r sp o ns bs hsum

theorem State.checkDevice_maps {s : State} (hs : Clean s) (detail : Nat) {va n o : Nat} {sp : Space} (hn : 0 < n)
    (h : Maps s .device .write va n sp o) : s.checkDevice detail va n = .ok () := by
  obtain ⟨ns, hspan, -⟩ := State.translateSpan_maps hs hn h
  simp only [State.checkDevice, hspan, inDevice_laid, if_true]

end Sys2Proof.Machine

end

/-! ## The flow table (R332 to R336) -/

section

namespace Sys2Proof.Machine

/-! ### Keys -/

theorem FlowEntry.keyed_iff {f : FlowEntry} {x : RouteDesc} {n : Nat} :
    f.keyed x n = true ↔ f.corrupt ≠ 2 ∧ f.layer = x.layer ∧ f.batch = x.batch ∧ f.token = n ∧ f.stepTag = x.tag := by
  simp [FlowEntry.keyed, and_assoc]

/-- An entry is of one token. -/
theorem FlowEntry.keyed_inj {f : FlowEntry} {x : RouteDesc} {n m : Nat} (hn : f.keyed x n = true) (hm : f.keyed x m = true) : n = m := by
  obtain ⟨-, -, -, hn, -⟩ := keyed_iff.mp hn
  obtain ⟨-, -, -, hm, -⟩ := keyed_iff.mp hm
  exact hn.symm.trans hm

/-! ### The entry of a token -/

theorem State.entryOf_some {s : State} {x : RouteDesc} {i : Nat} {f : FlowEntry} (h : s.entryOf x i = some f) :
    f ∈ s.routing.table ∧ f.keyed x (x.base + i) = true :=
  by
  unfold State.entryOf at h
  exact ⟨List.mem_of_find?_eq_some h, by simpa using List.find?_some h⟩

/-- In a sound table an entry with a token's key is the entry of that token. -/
theorem TableSound.entryOf_of_keyed {s : State} {x : RouteDesc} (hs : TableSound s x) {i : Nat} {f : FlowEntry}
    (hf : f ∈ s.routing.table) (hk : f.keyed x (x.base + i) = true) : s.entryOf x i = some f := by
  obtain ⟨-, -, -, huniq⟩ := hs
  rcases he : s.entryOf x i with _ | g
  · exact absurd hk (List.find?_eq_none.mp he f hf)
  · obtain ⟨hg, hgk⟩ := State.entryOf_some he
    rw [huniq g hg f hf _ hgk hk]

theorem TableSound.corrupt {s : State} {x : RouteDesc} (hs : TableSound s x) {f : FlowEntry} (hf : f ∈ s.routing.table) :
    f.corrupt = 0 := by
  obtain ⟨-, hcorrupt, -⟩ := hs
  exact hcorrupt f hf

theorem TableSound.eq_of_index {s : State} {x : RouteDesc} (hs : TableSound s x) {f g : FlowEntry} (hf : f ∈ s.routing.table)
    (hg : g ∈ s.routing.table) (h : f.index = g.index) : f = g := by
  obtain ⟨hindex, -⟩ := hs
  exact List.inj_on_of_nodup_map hindex hf hg h

theorem State.entryOf_congr {s t : State} (h : t.routing = s.routing) (x : RouteDesc) (i : Nat) : t.entryOf x i = s.entryOf x i := by
  simp only [State.entryOf, h]

theorem TableSound.congr {s t : State} {x : RouteDesc} (h : t.routing = s.routing) (hs : TableSound s x) : TableSound t x := by
  simpa only [TableSound, h] using hs

/-! ### The search (R333) -/

theorem State.flowAt_some {s : State} {i : Nat} {f : FlowEntry} (h : s.flowAt i = some f) : f ∈ s.routing.table :=
  List.mem_of_find?_eq_some h

/-- In a sound table the window of a token's home holds the token's entry or does not; nothing changes. -/
theorem State.probe_sound {s : State} {x : RouteDesc} (hs : TableSound s x) (i : Nat) (is : List Nat) (p : Nat) :
    ∃ found p', s.probe x (x.base + i) is ⟨.missing, p, none⟩ = (⟨found, p', none⟩, s)
      ∧ (found = .missing ∨ ∃ f, found = .table f ∧ s.entryOf x i = some f) := by
  induction is generalizing p with
  | nil => exact ⟨.missing, p, rfl, .inl rfl⟩
  | cons j js ih =>
    simp only [State.probe]
    rcases hat : s.flowAt (j % flowEntries) with _ | f
    · exact ih (p + 1)
    · have hf := State.flowAt_some hat
      have hc := hs.corrupt hf
      by_cases hk : f.keyed x (x.base + i) = true
      · exact ⟨.table f, p + 1, by simp [hk, hc], .inr ⟨f, rfl, hs.entryOf_of_keyed hf hk⟩⟩
      · simpa [hk, hc] using ih (p + 1)

/-- An entry outside its window is found all the same (log 36). -/
theorem State.displaced_eq_entryOf (s : State) (x : RouteDesc) (i : Nat) : s.displaced x (x.base + i) = s.entryOf x i := by
  unfold State.displaced State.entryOf
  congr 1
  funext f
  unfold FlowEntry.keyed
  cases f.corrupt != 2 <;> rfl

/-- R333: while the spill list is empty every chain is. -/
theorem State.chainHead_nil {s : State} (h : s.routing.spillUsed = []) (rd : Reader) (chain : Nat) :
    ∃ i, i = noLink ∧ s.chainHead rd chain = (.ok (i, none), s) :=
  ⟨noLink, rfl, by simp only [State.chainHead, h, List.isEmpty_nil, if_true]⟩

/-- A chain ends at a link of all ones. (The link is a variable: the kernel does not unfold the number.) -/
theorem State.chase_noLink (s : State) (rd : Reader) (x : RouteDesc) (token fuel : Nat) {i : Nat} (h : i = noLink) (prev : Option Nat)
    (r : Search) : s.chase rd x token fuel i prev r = (.ok r, s) := by
  cases fuel with
  | zero => rfl
  | succ fuel =>
    have hi : (i == noLink) = true := beq_iff_eq.mpr h
    simp only [State.chase, hi, if_true]

section

variable {s u : State} {x : RouteDesc} {token : Nat} {r : Search} {f : FlowEntry}
  (hprobe : s.probe x token ((List.range 8).map (s.flowHome x token + ·)) ⟨.missing, 0, none⟩ = (r, u))

include hprobe

theorem State.search_of_window (rd : Reader) (hfound : r.found = .table f) : s.search rd x token = (.ok r, u) := by
  unfold State.search
  extract_lets home
  rw [hprobe]
  simp only [hfound]

theorem State.search_of_displaced (rd : Reader) (hfound : r.found = .missing) (hd : u.displaced x token = some f)
    (hc : f.corrupt = 0) : s.search rd x token = (.ok ⟨.table f, r.probes + 1, none⟩, u) := by
  unfold State.search
  extract_lets home
  rw [hprobe]
  simp [hfound, hd, hc]

theorem State.search_of_nowhere (rd : Reader) (hfound : r.found = .missing) (hd : u.displaced x token = none)
    (hspill : u.routing.spillUsed = []) : s.search rd x token = (.ok r, u) := by
  unfold State.search
  extract_lets home
  obtain ⟨link, hlink, hhead⟩ := State.chainHead_nil hspill rd (home / 8)
  rw [hprobe]
  simp only [hfound, hd, hhead, State.chase_noLink u rd x token _ hlink]
  rw [← hfound]

end

/-- R333: with an empty spill list and a sound table a search finds the token's entry or nothing, and changes nothing. -/
theorem State.search_sound {s : State} {x : RouteDesc} (hs : TableSound s x) (rd : Reader) (i : Nat) :
    ∃ p, s.search rd x (x.base + i) = (.ok ⟨(s.entryOf x i).elim .missing .table, p, none⟩, s) := by
  obtain ⟨found, p, hprobe, hfound⟩ := State.probe_sound hs i ((List.range 8).map (s.flowHome x (x.base + i) + ·)) 0
  have hd := s.displaced_eq_entryOf x i
  rcases hfound with rfl | ⟨f, rfl, he⟩
  · rcases he : s.entryOf x i with _ | f
    · obtain ⟨-, -, hspill, -⟩ := hs
      exact ⟨p, State.search_of_nowhere hprobe rd rfl (hd.trans he) hspill⟩
    · exact ⟨p + 1, State.search_of_displaced hprobe rd rfl (hd.trans he) (hs.corrupt (State.entryOf_some he).1)⟩
  · exact ⟨p, by rw [he, State.search_of_window hprobe rd rfl, Option.elim_some]⟩

/-! ### Freeing entries (R336) -/

/-- The state in which the entries of these tokens of a descriptor are FREE. -/
def State.freed (s : State) (x : RouteDesc) (is : List Nat) : State :=
  { s with routing := { s.routing with
    table := s.routing.table.filter fun f => !is.any fun i => s.entryOf x i == some f
    free := s.routing.free + is.countP fun i => (s.entryOf x i).isSome } }

theorem State.freed_nil (s : State) (x : RouteDesc) : s.freed x [] = s := by
  simp [State.freed]

theorem TableSound.freed {s : State} {x : RouteDesc} (hs : TableSound s x) (is : List Nat) : TableSound (s.freed x is) x := by
  obtain ⟨hindex, hcorrupt, hspill, huniq⟩ := hs
  exact ⟨hindex.sublist (List.filter_sublist.map _), fun f hf => hcorrupt f (List.mem_filter.mp hf).1, hspill,
    fun f hf g hg => huniq f (List.mem_filter.mp hf).1 g (List.mem_filter.mp hg).1⟩

/-- Freeing other tokens' entries leaves a token its own. -/
theorem TableSound.entryOf_freed {s : State} {x : RouteDesc} (hs : TableSound s x) {is : List Nat} {j : Nat} (hj : j ∉ is) :
    (s.freed x is).entryOf x j = s.entryOf x j := by
  have hkept : ∀ f, s.entryOf x j = some f → f ∈ (s.freed x is).routing.table := by
    intro f he
    refine List.mem_filter.mpr ⟨(State.entryOf_some he).1, ?_⟩
    simp only [Bool.not_eq_true', List.any_eq_false, beq_iff_eq]
    intro i hi hf
    have := FlowEntry.keyed_inj (State.entryOf_some hf).2 (State.entryOf_some he).2
    obtain rfl : i = j := by omega
    exact hj hi
  rcases he : s.entryOf x j with _ | f
  · exact List.find?_eq_none.mpr fun f hf => List.find?_eq_none.mp he f (List.mem_filter.mp hf).1
  · exact (hs.freed is).entryOf_of_keyed (hkept f he) (State.entryOf_some he).2

/-- Freeing the entry of one token and then those of others frees them all. -/
theorem TableSound.freed_freed {s : State} {x : RouteDesc} (hs : TableSound s x) {i : Nat} {is : List Nat} (hi : i ∉ is) :
    (s.freed x [i]).freed x is = s.freed x (i :: is) := by
  have hother : ∀ j ∈ is, (s.freed x [i]).entryOf x j = s.entryOf x j := fun j hj =>
    hs.entryOf_freed (by rintro h; exact hi (List.mem_singleton.mp h ▸ hj))
  have htable : ((s.freed x [i]).routing.table.filter fun f => !is.any fun j => s.entryOf x j == some f)
      = s.routing.table.filter fun f => !(i :: is).any fun j => s.entryOf x j == some f := by
    simp [State.freed, List.filter_filter, Bool.and_comm]
  have hfree : (s.freed x [i]).routing.free + is.countP (fun j => (s.entryOf x j).isSome)
      = s.routing.free + (i :: is).countP fun j => (s.entryOf x j).isSome := by
    simp only [State.freed, List.countP_cons, List.countP_nil]
    omega
  have hany : (fun f => !is.any fun j => (s.freed x [i]).entryOf x j == some f) = fun f => !is.any fun j => s.entryOf x j == some f :=
    funext fun f => congrArg _ <| Bool.eq_iff_iff.mpr <| by
      simp only [List.any_eq_true]
      exact exists_congr fun j => and_congr_right fun hj => by rw [hother j hj]
  have hcount : is.countP (fun j => ((s.freed x [i]).entryOf x j).isSome) = is.countP fun j => (s.entryOf x j).isSome :=
    List.countP_congr fun j hj => by rw [hother j hj]
  rw [State.freed, hany, hcount, htable, hfree]
  rfl

/-- Freeing the table entry at a token's entry's index frees that entry alone. -/
theorem TableSound.freed_singleton {s : State} {x : RouteDesc} (hs : TableSound s x) {i : Nat} {e : FlowEntry}
    (he : s.entryOf x i = some e) :
    s.freed x [i] = { s with routing := { s.routing with
      table := s.routing.table.filter fun f => f.index != e.index
      free := s.routing.free + 1 } } := by
  have htable : (s.routing.table.filter fun f => !([i].any fun j => s.entryOf x j == some f))
      = s.routing.table.filter fun f => f.index != e.index := by
    refine List.filter_congr fun f hf => ?_
    by_cases hfe : f = e
    · simp [he, hfe]
    · have hindex : f.index ≠ e.index := fun h => hfe (hs.eq_of_index hf (State.entryOf_some he).1 h)
      have hef : (e == f) = false := beq_false_of_ne (Ne.symm hfe)
      simp [he, hindex, hef]
  simp only [State.freed, htable]
  simp [he]

theorem State.freed_singleton_none {s : State} {x : RouteDesc} {i : Nat} (he : s.entryOf x i = none) : s.freed x [i] = s := by
  simp [State.freed, he]

end Sys2Proof.Machine

end

/-! ## RECALL and RELEASE (R335, R336) -/

section

namespace Sys2Proof.Machine

/-! ### What the tokens add up to -/

/-- The operation op has gone on to op' over these tokens: it counts those found and those missing, and meets no error. -/
structure Tallied (s : State) (x : RouteDesc) (is : List Nat) (op op' : RoutingOp) : Prop where
  work : op'.work = op.work
  suspended : op'.suspended = op.suspended
  errorRec : op'.errorRec = op.errorRec
  routed : op'.routed = op.routed + is.countP fun i => (s.entryOf x i).isSome
  missing : op'.missing = op.missing + is.countP fun i => !(s.entryOf x i).isSome

theorem Tallied.nil (s : State) (x : RouteDesc) (op : RoutingOp) : Tallied s x [] op op :=
  ⟨rfl, rfl, rfl, rfl, rfl⟩

theorem Tallied.cons {s t : State} {x : RouteDesc} {i : Nat} {is : List Nat} {op op' op'' : RoutingOp}
    (hent : ∀ j ∈ is, t.entryOf x j = s.entryOf x j) (h : Tallied s x [i] op op') (h' : Tallied t x is op' op'') :
    Tallied s x (i :: is) op op'' := by
  have hfound : is.countP (fun j => (t.entryOf x j).isSome) = is.countP fun j => (s.entryOf x j).isSome :=
    List.countP_congr fun j hj => by rw [hent j hj]
  have hmissing : is.countP (fun j => !(t.entryOf x j).isSome) = is.countP fun j => !(s.entryOf x j).isSome :=
    List.countP_congr fun j hj => by rw [hent j hj]
  refine ⟨h'.work.trans h.work, h'.suspended.trans h.suspended, h'.errorRec.trans h.errorRec, ?_, ?_⟩
  · rw [h'.routed, h.routed, hfound]
    simp only [List.countP_cons, List.countP_nil]
    omega
  · rw [h'.missing, h.missing, hmissing]
    simp only [List.countP_cons, List.countP_nil]
    omega

/-- Tokens found and tokens missing are all the tokens. -/
theorem found_add_missing (s : State) (x : RouteDesc) (is : List Nat) :
    (is.countP fun i => (s.entryOf x i).isSome) + (is.countP fun i => !(s.entryOf x i).isSome) = is.length := by
  rw [List.length_eq_countP_add_countP (l := is) fun i => (s.entryOf x i).isSome]
  congr 2
  funext i
  cases s.entryOf x i <;> rfl

@[simp] theorem newRoutingOp_next (w : Work) : (newRoutingOp w).next = 0 := rfl

/-- What a new operation has counted after its first n tokens. -/
theorem Tallied.of_new {s : State} {x : RouteDesc} {n : Nat} {w : Work} {op : RoutingOp}
    (h : Tallied s x (List.range' 0 n) (newRoutingOp w) op) :
    op.work = w ∧ op.routed = ((List.range n).filter fun i => (s.entryOf x i).isSome).length
      ∧ op.missing = n - ((List.range n).filter fun i => (s.entryOf x i).isSome).length ∧ op.suspended = none := by
  have hall := found_add_missing s x (List.range' 0 n)
  have hrouted := h.routed
  have hmissing := h.missing
  rw [List.length_range'] at hall
  rw [List.range_eq_range', ← List.countP_eq_length_filter]
  refine ⟨h.work, ?_, ?_, h.suspended⟩ <;> simp only [newRoutingOp] at hrouted hmissing <;> omega

/-! ### RELEASE -/

theorem TableSound.releaseToken {s : State} {x : RouteDesc} (hs : TableSound s x) (op : RoutingOp) :
    ∃ op', s.releaseToken op x = (.ok op', s.freed x [op.next]) ∧ op'.next = op.next + 1 ∧ Tallied s x [op.next] op op' := by
  obtain ⟨p, hsearch⟩ :=
    State.search_sound hs (routingReader (((s.layerRecord x.layer).map LayerRec.of).elim 0 fun r => r.home)) op.next
  simp only [State.releaseToken, hsearch]
  rcases he : s.entryOf x op.next with _ | f
  · rw [State.freed_singleton_none he]
    exact ⟨_, rfl, rfl, rfl, rfl, rfl, by simp [he], by simp [he]⟩
  · rw [hs.freed_singleton he]
    exact ⟨_, rfl, rfl, rfl, rfl, rfl, by simp [he], by simp [he]⟩

theorem TableSound.releaseRun {s : State} {x : RouteDesc} (hs : TableSound s x) (xd n : Nat) (op : RoutingOp) :
    ∃ op', State.releaseRun xd x n op s
        = (s.freed x (List.range' op.next n)).setRouting xd (some { op' with ended := some ⟨stOk, 0⟩ })
      ∧ Tallied s x (List.range' op.next n) op op' := by
  induction n generalizing s op with
  | zero => exact ⟨op, by rw [List.range'_zero, State.freed_nil]; rfl, Tallied.nil s x op⟩
  | succ n ih =>
    obtain ⟨op₁, htoken, hnext, htally⟩ := hs.releaseToken op
    obtain ⟨op₂, hrun, htally'⟩ := ih (hs.freed [op.next]) op₁
    rw [hnext] at hrun htally'
    have hlater : op.next ∉ List.range' (op.next + 1) n := by simp
    refine ⟨op₂, ?_, htally.cons (fun j hj => hs.entryOf_freed ?_) htally'⟩
    · simp only [State.releaseRun, htoken, hrun, hs.freed_freed hlater, List.range'_succ]
    · rintro hj'
      rw [List.mem_singleton] at hj'
      exact hlater (hj' ▸ hj)

/-! ### RECALL -/

theorem leBytes_length (n v : Nat) : (leBytes n v).length = n := by
  induction n generalizing v with
  | zero => rfl
  | succ n ih => simp [leBytes, ih]

theorem recallWords_length (r : LayerRec) (f : Option FlowEntry) : (recallWords r f).length = 4 * r.k := by
  simp [recallWords, leBytes_length, Nat.mul_comm]

/-- What lets a RECALL write for every one of its tokens: a sound table, entries of the layer's own rank count, clean memory, and COMBINE
met from offset o of a memory on. -/
structure RecallReady (s : State) (x : RouteDesc) (r : LayerRec) (sp : Space) (o : Nat) : Prop where
  sound : TableSound s x
  clean : Clean s
  ranks : ∀ f ∈ s.routing.table, f.layer = x.layer → f.k = r.k
  pos : 0 < r.k
  maps : Maps s .device .write x.combine (4 * (x.tokens * r.k)) sp o

theorem RecallReady.written {s t : State} {x : RouteDesc} {r : LayerRec} {sp : Space} {o a : Nat} {bs : List Byte}
    (h : RecallReady s x r sp o) (hw : BytesWritten s t sp a bs) : RecallReady t x r sp o := by
  obtain ⟨m, l, mem, rfl⟩ := hw.counted
  exact ⟨h.sound, hw.clean, h.ranks, h.pos, hw.maps h.clean h.maps⟩

/-- The ranks of a token's row of COMBINE. -/
theorem RecallReady.token_maps {s : State} {x : RouteDesc} {r : LayerRec} {sp : Space} {o : Nat} (h : RecallReady s x r sp o) {i : Nat}
    (hi : i < x.tokens) : Maps s .device .write (x.combine + 4 * (i * r.k)) (4 * r.k) sp (o + 4 * (i * r.k)) := by
  have hrow : (i + 1) * r.k ≤ x.tokens * r.k := Nat.mul_le_mul_right _ hi
  rw [Nat.add_mul, Nat.one_mul] at hrow
  exact (h.maps.drop (4 * (i * r.k))).take (by omega)

theorem RecallReady.recallToken {s : State} {x : RouteDesc} {r : LayerRec} {sp : Space} {o : Nat} (h : RecallReady s x r sp o)
    (op : RoutingOp) (hi : op.next < x.tokens) :
    ∃ op' t, s.recallToken op x r = (.ok op', t) ∧ op'.next = op.next + 1 ∧ Tallied s x [op.next] op op'
      ∧ BytesWritten s t sp (o + 4 * (op.next * r.k)) (recallWords r (s.entryOf x op.next)) := by
  obtain ⟨p, hsearch⟩ := State.search_sound h.sound (routingReader r.home) op.next
  have hmaps := h.token_maps hi
  have hpos := h.pos
  have hcheck := State.checkDevice_maps h.clean 6 (by omega) hmaps
  rw [← recallWords_length r (s.entryOf x op.next)] at hmaps
  have hstore := State.storeAt_maps h.clean (routingReader r.home) (by rw [recallWords_length]; omega) hmaps
  unfold State.recallToken
  simp only [hsearch]
  rcases he : s.entryOf x op.next with _ | f
  · rw [he] at hstore
    simp only [Option.elim_none, hcheck]
    refine ⟨_, _, rfl, rfl, ⟨rfl, rfl, rfl, by simp [he, bit], by simp [he, bit]⟩, ?_⟩
    simpa only [recallWords, List.flatMap_map] using hstore
  · obtain ⟨hf, hk⟩ := State.entryOf_some he
    obtain ⟨-, hlayer, -⟩ := FlowEntry.keyed_iff.mp hk
    have hc := h.sound.corrupt hf
    have hr := h.ranks f hf hlayer
    rw [he] at hstore
    simp only [Option.elim_some, hc, hr, beq_self_eq_true, if_true, hcheck]
    refine ⟨_, _, rfl, rfl, ⟨rfl, rfl, rfl, by simp [he, bit], by simp [he, bit]⟩, ?_⟩
    simpa [recallWords, List.flatMap_map] using hstore

theorem RecallReady.recallRun {s : State} {x : RouteDesc} {r : LayerRec} {sp : Space} {o : Nat} (h : RecallReady s x r sp o)
    (xd n : Nat) (op : RoutingOp) (hn : op.next + n = x.tokens) (herr : op.errorRec = none) :
    ∃ op' t, State.recallRun xd x r n op s
        = t.setRouting xd (some { op' with ended := some (if op'.missing = 0 then ⟨stOk, 0⟩ else ⟨0x0112, 0⟩) })
      ∧ Tallied s x (List.range' op.next n) op op'
      ∧ BytesWritten s t sp (o + 4 * (op.next * r.k)) ((List.range' op.next n).flatMap fun i => recallWords r (s.entryOf x i)) := by
  induction n generalizing s op with
  | zero =>
    refine ⟨op, s, ?_, Tallied.nil s x op, BytesWritten.nil h.clean _ _⟩
    simp only [State.recallRun, herr, beq_iff_eq]
  | succ n ih =>
    obtain ⟨op₁, u, htoken, hnext, htally, hwords⟩ := h.recallToken op (by omega)
    have hready := h.written hwords
    obtain ⟨op₂, t, hrun, htally', hwords'⟩ := ih hready op₁ (by omega) (htally.errorRec.trans herr)
    have hent := fun i => State.entryOf_congr hwords.routing x i
    rw [hnext] at htally' hwords'
    simp only [hent] at hwords'
    refine ⟨op₂, t, by simp only [State.recallRun, htoken, hrun], htally.cons (fun j _ => hent j) htally', ?_⟩
    rw [List.range'_succ, List.flatMap_cons]
    refine hwords.append ?_
    have hplace : o + 4 * (op.next * r.k) + (recallWords r (s.entryOf x op.next)).length = o + 4 * ((op.next + 1) * r.k) := by
      rw [recallWords_length]
      ring
    rwa [hplace]

/-! ### The head of a routing queue (R319 to R321) -/

theorem leastBad_none {l : List (Nat × Bool)} (h : leastBad l = none) : ∀ p ∈ l, p.2 = false := by
  simpa [leastBad] using h

theorem descKind_of_routeBad {d : List Byte} {experts : Nat} (h : routeBad d experts = none) : descKind d = 4 := by
  have hfirst := leastBad_none (by simpa only [routeBad] using h) _ (List.mem_append_left _ List.mem_cons_self)
  simp only [Bool.or_eq_false_iff, bne_eq_false_iff_eq] at hfirst
  obtain ⟨⟨⟨hkind, -⟩, -⟩, -⟩ := hfirst
  exact hkind

/-- The state in which the head of a routing queue has left it. -/
def State.routingTaken (s : State) (xd : Nat) : State :=
  { s with routers := s.routers.modify xd fun r => { r with queue := r.queue.drop 1 } }

/-- R319 to R321: the valid descriptor w, of the layer with record d, heads the queue of the idle engine e, and may start. -/
structure RoutingHead (s : State) (xd : Nat) (e : RoutingEngine) (w : Work) (rest : List Work) (d : List Byte) : Prop where
  router : s.router? xd = some e
  idle : e.active = none
  queue : e.queue = w :: rest
  run : s.enginesRun = true
  start : s.mayStart w = true
  valid : routeBad w.desc (s.expertsOf w.desc) = none
  layer : s.layerRecord (RouteDesc.of w.desc).layer = some d

section

variable {s : State} {xd : Nat} {e : RoutingEngine} {w : Work} {rest : List Work} {d : List Byte}

/-- Such a descriptor, unless it is a ROUTE, leaves the queue and begins. -/
theorem RoutingHead.routingStart (h : RoutingHead s xd e w rest d) (begin_ : State → State) (hmode : (RouteDesc.of w.desc).mode ≠ 0) :
    s.routingStart xd e w begin_ = begin_ (s.routingTaken xd) := by
  have hvalid : routeBad w.desc ((s.routingTaken xd).expertsOf w.desc) = none := h.valid
  have hlayer : (s.routingTaken xd).layerRecord (RouteDesc.of w.desc).layer = some d := h.layer
  have hroute : ((RouteDesc.of w.desc).mode == 0) = false := beq_false_of_ne hmode
  unfold State.routingStart
  rw [← State.routingTaken]
  simp only [hvalid, hlayer, hroute, Option.isNone_some, Bool.false_eq_true, if_false]

/-- So the command of its mode does, RECALL or RELEASE. -/
theorem RoutingHead.routingCommand (h : RoutingHead s xd e w rest d) {mode : Nat} (begin_ : Work → State → State)
    (more : RoutingOp → State → State) (hmode : (RouteDesc.of w.desc).mode = mode) (hne : mode = 1 ∨ mode = 2) :
    s.routingCommand xd mode begin_ more = begin_ w (s.routingTaken xd) := by
  have hfield : field (get32 w.desc 0) 5 4 = mode := hmode
  have hkind := descKind_of_routeBad h.valid
  have hnotRoute : mode ≠ 0 := by omega
  have hnotReserved : mode ≠ 3 := by omega
  rw [← h.routingStart (begin_ w) (hmode ▸ hnotRoute)]
  simp [State.routingCommand, h.router, h.idle, h.queue, h.run, h.start, hkind, hfield, hnotReserved]

/-- A RECALL that begins runs over all its tokens. -/
theorem RoutingHead.exec_recall (h : RoutingHead s xd e w rest d) (hmode : (RouteDesc.of w.desc).mode = 1) :
    exec (.recall xd) s = s.after (.next (State.recallRun xd (RouteDesc.of w.desc) (LayerRec.of d) (RouteDesc.of w.desc).tokens
      (newRoutingOp w) (s.routingTaken xd))) := by
  have hlayer : (s.routingTaken xd).layerRecord (RouteDesc.of (newRoutingOp w).work.desc).layer = some d := h.layer
  change execRecall xd s = _
  rw [execRecall, h.routingCommand _ _ hmode (.inl rfl), State.recallGo]
  simp only [hlayer]
  rfl

/-- A RELEASE that begins runs over all its tokens. -/
theorem RoutingHead.exec_release (h : RoutingHead s xd e w rest d) (hmode : (RouteDesc.of w.desc).mode = 2) :
    exec (.release xd) s = s.after (.next (State.releaseRun xd (RouteDesc.of w.desc) (RouteDesc.of w.desc).tokens (newRoutingOp w)
      (s.routingTaken xd))) := by
  change execRelease xd s = _
  rw [execRelease, h.routingCommand _ _ hmode (.inr rfl)]
  rfl

/-- The engine once its operation has run: the rest of its queue, and the operation. -/
theorem RoutingHead.router_after (h : RoutingHead s xd e w rest d) {t : State} (ht : t.routers = (s.routingTaken xd).routers)
    (op : RoutingOp) : (t.setRouting xd (some op)).router? xd = some { e with queue := rest, active := some op } := by
  have hrouter := h.router
  unfold State.router? at hrouter
  simp [State.router?, State.setRouting, State.routingTaken, ht, hrouter, h.queue]

/-- An operation that leaves alone what engines leave alone, and the fuses and the queue of commands, is the command's outcome. -/
theorem State.after_setRouting {t : State} (op : Option RoutingOp) (hframe : EngineFrame s t) (hfuses : t.fuses = s.fuses)
    (hpending : t.pending = s.pending) : s.after (.next (t.setRouting xd op)) = .next (t.setRouting xd op) := by
  obtain ⟨hbar0, -, -, -, -, hfw, -⟩ := hframe
  have hkept : s.latched (s.fixed (t.setRouting xd op)) = t.setRouting xd op :=
    State.latched_fixed_of s _ hfuses hpending (by simp [hbar0]) (by simp [hfw]) (by simp [hfw])
  rw [State.after, hkept]

end

end Sys2Proof.Machine

section

open Sys2Proof Sys2Proof.Machine

/-- Settles O56: with a sound table each token's search finds its entry or nothing; RECALL writes the tokens' rows one behind the other, and
RELEASE frees the entries found one by one, which leaves those of the tokens to come. -/
theorem recallsReadAndReleasesFree : Obligations.RecallsReadAndReleasesFree := by
  intro s xd e w rest d hrouter hidle hqueue hrun hstart hbad x r found hlayer hsound
  have hhead : RoutingHead s xd e w rest d := ⟨hrouter, hidle, hqueue, hrun, hstart, hbad, hlayer⟩
  have hsound' : TableSound (s.routingTaken xd) x := hsound
  have hle : found.length ≤ x.tokens := (List.length_filter_le _ _).trans_eq List.length_range
  refine ⟨fun sp o hmode hclean hk hranks hmaps => ?_, fun hmode => ?_⟩
  · have hready : RecallReady (s.routingTaken xd) x r sp o :=
      ⟨hsound', hclean, hranks, Nat.pos_of_ne_zero hk, hmaps.of_agree hclean hclean rfl rfl⟩
    obtain ⟨op, t, hgo, htally, hwords⟩ := hready.recallRun xd x.tokens (newRoutingOp w) (Nat.zero_add _) rfl
    obtain ⟨hwork, hrouted, hmissing, hsuspended⟩ := htally.of_new
    obtain ⟨hframe, hfuses, hpending, hrouters⟩ :
        EngineFrame s t ∧ t.fuses = s.fuses ∧ t.pending = s.pending ∧ t.routers = (s.routingTaken xd).routers := by
      obtain ⟨m, l, mem, rfl⟩ := hwords.counted
      exact ⟨⟨rfl, rfl, rfl, rfl, rfl, rfl, rfl, rfl, rfl⟩, rfl, rfl, rfl⟩
    have hexec := hhead.exec_recall hmode
    rw [hgo, State.after_setRouting _ hframe hfuses hpending] at hexec
    have hend : op.missing = 0 ↔ found.length = x.tokens := by
      have : op.missing = x.tokens - found.length := hmissing
      omega
    have hstored := hwords.stored
    simp only [newRoutingOp_next, Nat.zero_mul, Nat.mul_zero, Nat.add_zero, ← List.range_eq_range'] at hstored
    refine ⟨_, _, hexec, hhead.router_after hrouters _, hwork, hrouted, hmissing, hsuspended, ?_, hstored,
      hwords.routing, hframe⟩
    simp only [hend, stOk]
  · obtain ⟨op, hgo, htally⟩ := hsound'.releaseRun xd x.tokens (newRoutingOp w)
    obtain ⟨hwork, hrouted, hmissing, hsuspended⟩ := htally.of_new
    have hframe : EngineFrame s ((s.routingTaken xd).freed x (List.range' 0 x.tokens)) := ⟨rfl, rfl, rfl, rfl, rfl, rfl, rfl, rfl, rfl⟩
    have hexec := hhead.exec_release hmode
    rw [hgo, newRoutingOp_next, State.after_setRouting _ hframe rfl rfl, ← List.range_eq_range'] at hexec
    refine ⟨_, _, hexec, hhead.router_after rfl _, hwork, hrouted, hmissing, rfl, hsuspended, rfl, ?_,
      rfl, rfl, rfl, hframe⟩
    exact congrArg (s.routing.free + ·) List.countP_eq_length_filter

end

end

/-! ## The launch of a thread (R344, R345) -/

section

namespace Sys2Proof.Machine

/-! ### A thread after another has changed -/

theorem State.cluster?_some_iff {s : State} {e : ClusterId} {c : Cluster} :
    s.cluster? e = some c ↔ e.cluster < 16 ∧ s.clusters[e.index]? = some c := by
  simp [State.cluster?]

/-- Two clusters with numbers below 16 share no place in the list of clusters. -/
theorem ClusterId.eq_of_index {e f : ClusterId} (he : e.cluster < 16) (hf : f.cluster < 16) (h : e.index = f.index) : e = f := by
  obtain ⟨cdie, cluster⟩ := e
  obtain ⟨cdie', cluster'⟩ := f
  simp only [ClusterId.index] at he hf h
  rw [ClusterId.mk.injEq]
  omega

theorem State.cluster?_modCluster_same {s : State} {e : ClusterId} {c : Cluster} (h : s.cluster? e = some c) (f : Cluster → Cluster) :
    (s.modCluster e f).cluster? e = some (f c) := by
  obtain ⟨hlt, hc⟩ := State.cluster?_some_iff.mp h
  exact State.cluster?_some_iff.mpr ⟨hlt, by simp [hc]⟩

theorem State.cluster?_modCluster_ne (s : State) {e u : ClusterId} (he : e.cluster < 16) (hne : u ≠ e) (f : Cluster → Cluster) :
    (s.modCluster e f).cluster? u = s.cluster? u := by
  by_cases hu : u.cluster < 16
  · have hindex : e.index ≠ u.index := fun h => hne (ClusterId.eq_of_index he hu h).symm
    simp [State.cluster?, hindex]
  · simp [State.cluster?, hu]

theorem State.thread?_modThread_same {s : State} {t : ThreadId} {th : Thread} (h : s.thread? t = some th) (f : Thread → Thread) :
    (s.modThread t f).thread? t = some (f th) := by
  obtain ⟨c, hc, hth⟩ := Option.bind_eq_some_iff.mp h
  simp [State.thread?, State.modThread, State.cluster?_modCluster_same hc, hth]

theorem State.thread?_modThread_ne {s : State} {t u : ThreadId} {th : Thread} (h : s.thread? t = some th) (hne : u ≠ t)
    (f : Thread → Thread) : (s.modThread t f).thread? u = s.thread? u := by
  obtain ⟨c, hc, -⟩ := Option.bind_eq_some_iff.mp h
  by_cases hat : u.at_ = t.at_
  · have hthread : t.thread ≠ u.thread := fun heq => hne <| by
      cases u
      cases t
      exact congr (congrArg ThreadId.mk hat) heq.symm
    simp [State.thread?, State.modThread, hat, State.cluster?_modCluster_same hc, hc, hthread]
  · simp [State.thread?, State.modThread, State.cluster?_modCluster_ne s (State.cluster?_some_iff.mp hc).1 hat]

/-! ### What a launch does -/

/-- R501, R508: powering a domain up concerns the power state and the free values alone. -/
theorem State.powerUp_eq (s : State) (d : Domain) : ∃ p n, s.powerUp d = { s with power := p, freeCtr := n } := by
  unfold State.powerUp
  by_cases hgated : s.power.gated.contains d = true
  · rw [if_pos hgated]
    dsimp only
    split_ifs
    · exact ⟨_, _, rfl⟩
    · exact ⟨_, _, rfl⟩
  · exact ⟨s.power, s.freeCtr, if_neg hgated⟩

/-- R344: the thread that a launch takes is there, and idle. -/
theorem idle_of_launchThread {c : Cluster} {want n : Nat} (h : launchThread c want = some n) :
    ∃ th, c.threads[n]? = some th ∧ th.state = .idle := by
  unfold launchThread at h
  split_ifs at h
  · have hidle := List.find?_some h
    split at hidle
    next th hth => exact ⟨th, hth, beq_iff_eq.mp hidle⟩
    next => cases hidle
  · split at h
    next th hth =>
      obtain ⟨hidle, hn⟩ := Option.ite_none_right_eq_some.mp h
      obtain rfl := Option.some.inj hn
      exact ⟨th, hth, beq_iff_eq.mp hidle⟩
    next => cases h

/-- R345: a launched thread, before its first instruction. -/
def launchedThread (num n : Nat) (q : Queue) (it : Item) (d : List Byte) : Thread :=
  { Thread.reset with
    pc := BitVec.ofNat 64 (descAddr d 8)
    regs := launchRegs d (descCluster d) n
    urgent := q.urgent
    state := .running
    queue := num
    uid := it.uid
    statusVa := descAddr d 0x88 }

/-- R345: each register of a launched thread. -/
theorem launchedThread_reg (num n : Nat) (q : Queue) (it : Item) (d : List Byte) {r : Nat} (hr : r < 32) :
    (launchedThread num n q it d).reg r = if 1 ≤ r ∧ r ≤ 8 then BitVec.ofNat 64 (get64 d (8 + 8 * r))
      else if r = 30 then BitVec.ofNat 64 (localBase + (descCluster d).index * 2 ^ 25)
      else if r = 31 then BitVec.ofNat 64 ((descCluster d).cdie * 256 + (descCluster d).cluster * 16 + n) else 0#64 := by
  simp [Thread.reg, launchedThread, launchRegs, hr]

/-- The state in which the item at the head of queue num has been started, its cluster has power, and its thread runs. -/
def State.launched (s : State) (num n : Nat) (q : Queue) (it : Item) (d : List Byte) : State :=
  ((s.startItem num it.uid).powerUp (.cluster (descCluster d))).modThread ⟨descCluster d, n⟩ fun _ => launchedThread num n q it d

/-- Up to the launched thread itself, a launch changes the queue, the power state and the free values alone. -/
theorem State.launched_eq (s : State) (num n : Nat) (q : Queue) (it : Item) (d : List Byte) :
    ∃ qs p k, s.launched num n q it d
      = State.modThread { s with queues := qs, power := p, freeCtr := k } ⟨descCluster d, n⟩ fun _ => launchedThread num n q it d := by
  obtain ⟨p, k, hpower⟩ := (s.startItem num it.uid).powerUp_eq (.cluster (descCluster d))
  exact ⟨_, p, k, by rw [State.launched, hpower]; rfl⟩

/-- R344: the command with a valid launch before it and a thread to give. -/
theorem exec_threadLaunch {s : State} {num n : Nat} {q : Queue} {it : Item} {d : List Byte} {c : Cluster}
    (hoffered : s.offered num = some (q, it)) (hwork : it.work = .desc d) (hkind : descKind d = 5)
    (hvalid : launchBad s.fuses.part d = none) (hcluster : s.cluster? (descCluster d) = some c)
    (hthread : launchThread c (field (get32 d 0) 8 4) = some n) :
    exec (.threadLaunch num) s = .next (s.launched num n q it d) := by
  have hmeaning : exec (.threadLaunch num) s = s.after (.next (s.launched num n q it d)) := by
    change execThreadLaunch num s = _
    simp only [execThreadLaunch, hoffered, hwork, hkind, hvalid, hcluster, hthread, bne_self_eq_false, Bool.false_eq_true, if_false]
    rfl
  obtain ⟨qs, p, k, heq⟩ := s.launched_eq num n q it d
  have hkept : s.latched (s.fixed (s.launched num n q it d)) = s.launched num n q it d := by
    rw [heq]
    exact State.latched_fixed_of s _ rfl rfl BitVec.or_self (Bool.or_self _) (Bool.or_self _)
  rw [hmeaning, State.after, hkept]

end Sys2Proof.Machine

end

section

open Sys2Proof Sys2Proof.Machine

/-- Settles O24: the command answers `launched`, in which the taken thread is `launchedThread` and only the queue, the power state and the free
values have changed besides. -/
theorem launchStartsAThread : Obligations.LaunchStartsAThread := by
  intro s num n q it d c hoffered hwork hkind hvalid hcluster hthread
  obtain ⟨old, hold, -⟩ := idle_of_launchThread hthread
  have hthere : s.thread? ⟨descCluster d, n⟩ = some old := Option.bind_eq_some_iff.mpr ⟨c, hcluster, hold⟩
  obtain ⟨qs, p, k, heq⟩ := s.launched_eq num n q it d
  refine ⟨s.launched num n q it d, launchedThread num n q it d,
    exec_threadLaunch hoffered hwork hkind hvalid hcluster hthread, ?_, rfl, rfl, rfl, rfl, rfl, rfl, rfl, rfl,
    fun r hr => launchedThread_reg num n q it d hr, ?_⟩
  · rw [heq]
    exact State.thread?_modThread_same hthere _
  · rw [heq]
    exact ⟨fun u hu => State.thread?_modThread_ne hthere hu _, fun _ _ => rfl, rfl, rfl⟩

end

/-! ## The PCIe link (R63 to R66, R518) -/

section

namespace Sys2Proof.Machine

/-! ### Messages and records leave the link's width and rate (R66, R85, R546) -/

/-- R66: sending may take the link out of L1, and does nothing else to it. -/
theorem State.flushVector_link (s : State) (v : Nat) : ∃ b, (s.flushVector v).link = { s.link with inL1 := b } := by
  unfold State.flushVector
  split
  · split
    · exact ⟨false, rfl⟩
    · exact ⟨s.link.inL1, rfl⟩
  · exact ⟨s.link.inL1, rfl⟩

theorem State.raise_link (s : State) (i : Nat) : ∃ b, (s.raise i).link = { s.link with inL1 := b } := by
  unfold State.raise
  split
  · split
    · exact ⟨s.link.inL1, rfl⟩
    · exact State.flushVector_link _ _
  · exact ⟨s.link.inL1, rfl⟩

theorem State.timeMs_link (s : State) : s.timeMs.2.link = s.link := by
  unfold State.timeMs
  split <;> rfl

theorem State.log_link (s : State) (r : Record) : ∃ b, (s.log r).link = { s.link with inL1 := b } := by
  unfold State.log State.record
  split
  · exact ⟨s.link.inL1, rfl⟩
  · rw [← s.timeMs_link]
    exact State.raise_link _ 64

/-! ### Training (R63, R64) -/

theorem trainedLink_lanes (lanes : BitVec 16) (rate : Nat) :
    (trainedLink lanes rate).lanes = if rate = 0 then 0 else linkWidth lanes := by
  by_cases hrate : rate = 0 <;> by_cases hwidth : linkWidth lanes = 0 <;> simp [trainedLink, hrate, hwidth]

/-- A link that is up runs at the lower of the offered rate and Gen5. -/
theorem trainedLink_rate {lanes : BitVec 16} {rate : Nat} (hup : (trainedLink lanes rate).lanes ≠ 0) :
    (trainedLink lanes rate).rate = min rate 5 := by
  unfold trainedLink at hup ⊢
  split at hup
  · exact absurd rfl hup
  · next htrains => rw [if_neg htrains]

/-! ### A change of width or rate (R65) -/

/-- From s, the link has come to the width and rate of l; configuration space, memory and carrels are as they were. -/
structure LinkTaken (s t : State) (l : Link) : Prop where
  lanes : t.link.lanes = l.lanes
  rate : t.link.rate = l.rate
  cfg : t.cfg = s.cfg
  mem : t.mem = s.mem
  carrels : t.carrels = s.carrels

/-- A Ledger record, R65's own among them, leaves a changed link at its width and rate. -/
theorem linkTaken_log (s : State) (l : Link) (r : Record) : LinkTaken s (State.log { s with link := l } r) l := by
  obtain ⟨b, hlink⟩ := State.log_link { s with link := l } r
  obtain ⟨_, _, _, _, _, _, hframe⟩ := State.record_frame { s with link := l } r
  rw [← State.log] at hframe
  exact ⟨by rw [hlink], by rw [hlink], by rw [hframe], by rw [hframe], by rw [hframe]⟩

theorem LinkTaken.after {s t : State} {l : Link} (h : LinkTaken s t l) : LinkTaken s (s.latched (s.fixed t)) l :=
  ⟨h.lanes, h.rate, h.cfg, h.mem, h.carrels⟩

/-- R65: out of reset, a change takes the trained link: it stands already, or it is put in force, with a record or without. -/
theorem exec_linkChange {s : State} (hgood : s.pins.pgood = true) (hreset : s.pins.inReset = false) (lanes : BitVec 16) (rate : Nat) :
    ∃ t, exec (.linkChange lanes rate) s = .next t ∧ LinkTaken s t (trainedLink lanes rate) := by
  change ∃ t, execLinkChange lanes rate s = .next t ∧ _
  have hruns : (!s.pins.pgood || s.pins.inReset) = false := by rw [hgood, hreset]; rfl
  simp only [execLinkChange, hruns, Bool.false_eq_true, if_false]
  split
  · next hsame =>
    obtain ⟨hl, hr⟩ : (trainedLink lanes rate).lanes = s.link.lanes ∧ (trainedLink lanes rate).rate = s.link.rate := by
      simpa using hsame
    exact ⟨_, rfl, LinkTaken.after ⟨hl.symm, hr.symm, rfl, rfl, rfl⟩⟩
  · split
    · exact ⟨_, rfl, (linkTaken_log s _ _).after⟩
    · exact ⟨_, rfl, LinkTaken.after ⟨rfl, rfl, rfl, rfl, rfl⟩⟩

/-! ### L1 and the reference clocks (R66, R518) -/

/-- A command that sets the link alone is answered as it stands. -/
theorem State.after_setLink (s : State) (l : Link) : s.after (.next { s with link := l }) = .next { s with link := l } :=
  congrArg Host.Outcome.next (State.latched_fixed_of s _ rfl rfl BitVec.or_self (Bool.or_self _) (Bool.or_self _))

theorem exec_l1Entry {s : State} (haspm : s.cfg.aspmL1 = true) (hup : s.link.lanes ≠ 0) :
    exec .l1Entry s = .next { s with link := { s.link with inL1 := true } } := by
  have henters : (s.cfg.aspmL1 && s.link.lanes != 0) = true := by simp [haspm, hup]
  change execL1Entry s = _
  rw [execL1Entry, if_pos henters, State.after_setLink]

theorem exec_l1Exit (s : State) : exec .l1Exit s = .next { s with link := { s.link with inL1 := false } } :=
  s.after_setLink { s.link with inL1 := false }

/-- R516: without PKG_PGOOD, bring-up goes on waiting for the clocks. -/
theorem exec_refclkLoss_bringUp {s : State} (hgood : s.pins.pgood = false) : exec .refclkLoss s = .next s := by
  change execRefclkLoss s = _
  rw [execRefclkLoss, if_neg (Bool.eq_false_iff.mp hgood)]
  exact s.after_setLink s.link

theorem exec_refclkLoss_good {s : State} (hgood : s.pins.pgood = true) : exec .refclkLoss s = .fault .refclkLost := by
  change execRefclkLoss s = _
  rw [execRefclkLoss, if_pos hgood]
  rfl

end Sys2Proof.Machine

end

section

open Sys2Proof Sys2Proof.Machine

/-- Settles O8: a change takes the trained link, L1 is a field of the link alone, and the loss of a reference clock turns on PKG_PGOOD. -/
theorem linkStateFollowsItsEvents : Obligations.LinkStateFollowsItsEvents := by
  refine ⟨fun s lanes rate hgood hreset => ?_, fun s => exec_l1Entry, exec_l1Exit, fun s => exec_refclkLoss_bringUp,
    fun s => exec_refclkLoss_good⟩
  obtain ⟨t, hexec, htaken⟩ := exec_linkChange hgood hreset lanes rate
  refine ⟨t, hexec, htaken.lanes.trans (trainedLink_lanes lanes rate), fun hup => ?_, htaken.cfg, htaken.mem, htaken.carrels⟩
  rw [htaken.rate, trainedLink_rate (htaken.lanes ▸ hup)]

end
